-- ==== Sys2Proof/Word.lean ====
section
/-! DEFINITION. The plain number types of the IPD2416: register bytes are bit vectors, because the host and the
nodes see them as bits; sources, nodes, lines, levels, tags and sequence numbers are bounded numbers, because the
spec only counts, compares and cycles them. -/

namespace Sys2Proof

/-- A register byte, a payload byte or a byte of a link frame (R97, R153). -/
abbrev Byte := BitVec 8

/-- A remote node, 0 to 14 (R1). -/
abbrev Node := Fin 15

/-- One of the sixteen sources; 15 is the local source (R1). -/
abbrev Source := Fin 16

/-- One of the eight lines of a source (R2). -/
abbrev Line := Fin 8

/-- A level, 15 the most urgent (R3). -/
abbrev Level := Fin 16

/-- A tag: 1 to 63 names an entry, 0 means "none" (R23). -/
abbrev Tag := Fin 64

/-- A sequence number of the Event Link, counted modulo 8 (R123). -/
abbrev Seq := Fin 8

/-- A credit limit: 1 to 7 granted, 0 for none (R130). -/
abbrev Credit := Fin 8

/-- The local source (R1). -/
def localSource : Source := 15

/-- The source that is node `n` (R1: a node number and its source number are the same number). -/
def Node.source (n : Node) : Source := n.castSucc

end Sys2Proof
end

