-- ==== Sys2Proof/Machine/Types.lean ====
section
/-! DEFINITION. The named alternatives and records of the spec that commands, frames and the state are made of. -/

namespace Sys2Proof.Machine

/-- The way a line reports (R4, R5). -/
inductive Kind
  | edge
  | held
  deriving DecidableEq, Repr

/-- The four modes (R158). -/
inductive Mode
  | config
  | run
  | stopping
  | paused
  deriving DecidableEq, Repr

/-- The result codes of RES (R157). -/
inductive ResultCode
  | ok
  | badCmd
  | badMode
  | badArg
  | noTag
  | inService
  | queueFull
  | inUse
  | noNode
  deriving DecidableEq, Repr

/-- The reasons of a null record (R60, R75, R166). `untouched` is reason 0: no claim since reset or RESTART. -/
inductive NullReason
  | untouched
  | none
  | stackFull
  | notRunning
  | queueFull
  deriving DecidableEq, Repr

/-- The commands that a code written to CMD names (R166). -/
inductive CmdCode
  | start
  | stop
  | resume
  | restart
  | complete
  | completeTop
  | discard
  | getEntry
  | setLine
  | getLine
  | setNode
  | getNode
  | retire
  | setLink
  deriving DecidableEq, Repr

/-- The host-visible registers that a write reaches with an effect of its own beside CMD and the ARGs: which half of
the level enables a write replaces (R45). -/
inductive LvenReg
  | lven0
  | lven1
  deriving DecidableEq, Repr

/-- A local condition other than COMMAND_DONE, with the node it concerns (R145). COMMAND_DONE is posted inside the
happening that ends STOP or RETIRE (R151) and is never handed over as a condition. -/
inductive LocalCondition
  | nodeJoined (n : Node)
  | nodeLost (n : Node)
  | nodeRestarted (n : Node)
  | linkFault (n : Node)
  | protocolFault (n : Node)
  | rxOverrun (n : Node)
  | nodeLeft (n : Node)
  deriving DecidableEq, Repr

/-- The five kinds of downstream frame (R99). -/
inductive FrameKind
  | poll
  | probe
  | done
  | admitFrame
  | eject
  deriving DecidableEq, Repr

/-- What ended an occurrence, as a DONE frame tells it (R94). -/
inductive DoneOutcome
  | serviced
  | discarded
  | withdrawn
  deriving DecidableEq, Repr

/-- The frames the Outbound Queue holds, with their arguments (R120). -/
inductive OutBody
  | done (line : Line) (outcome : DoneOutcome)
  | admitFrame (limit : Credit)
  | eject
  deriving DecidableEq, Repr

/-- One frame of the Outbound Queue (R120). -/
structure OutFrame where
  dest : Node
  body : OutBody
  deriving DecidableEq, Repr

/-- A downstream frame in the transmit buffer: fixed from the load on (R101). -/
structure TxFrame where
  dest  : Node
  kind  : FrameKind
  arg   : Byte
  check : Byte
  deriving DecidableEq, Repr

/-- The event kinds of an EVENT reply (R99). -/
inductive EventKind
  | pulse
  | assert
  | release
  deriving DecidableEq, Repr

/-- The content of a good reply, without check byte and ignored bits (R108). `declared` is the field value plus one. -/
inductive Reply
  | idle
  | hello (declared : Fin 9)
  | event (seq : Seq) (more : Bool) (kind : EventKind) (line : Line) (payload : List Byte)
  deriving DecidableEq, Repr

/-- The two kinds of slot that open a reply window (R108). -/
inductive SlotKind
  | poll
  | probe
  deriving DecidableEq, Repr

/-- The record in the receive holding buffer (R108). -/
structure ReplyRecord where
  node  : Node
  slot  : SlotKind
  reply : Reply
  deriving DecidableEq, Repr

/-- How the Link Engine reads a reply: cut short at the first invalid field, after the bytes it consumed (R105), or
read to its end (R104, R106). -/
inductive ReplyRead
  | framing (consumed : List Byte)
  | complete (bytes : List Byte) (reply : Reply)
  deriving DecidableEq, Repr

end Sys2Proof.Machine
end

