-- ==== Sys2Proof/Syntax.lean ====
section
/-! DEFINITION. The commands of the block, one constructor per row of spec/opcode_table.json in the table's order.
A host command (START, COMPLETE, ...) is the write of its code to CMD; its arguments stand in ARG0 to ARG3, which
REGISTER_WRITE fills (R155). The link's and the blocks' own happenings are commands of the same queue. -/

namespace Sys2Proof

open Machine

inductive Instr
  /-- A host read of STAT at address 0h (R154). -/
  | statRead
  /-- A host read of CLAIM at address 6h (R59). -/
  | claim
  /-- A host write of `value` to FLOOR at address Ch (R46). -/
  | floorWrite (value : Byte)
  /-- A host write of `value` to LVEN0 or LVEN1 at address Eh or Fh (R45). -/
  | lvenWrite (reg : LvenReg) (value : Byte)
  /-- A host write of `value` to the register at `addr`, one that has no behaviour of its own (R153). -/
  | registerWrite (addr : BitVec 4) (value : Byte)
  /-- A host write to CMD of a code that names no command (R155). -/
  | badCmd (code : Byte)
  /-- Code 01h (R159). -/
  | start
  /-- Code 02h (R160). -/
  | stop
  /-- Code 03h (R161). -/
  | resume
  /-- Code 04h (R162). -/
  | restart
  /-- One step of the RESTART walk (R41). -/
  | restartClearStep
  /-- Code 10h, the tag in ARG0 (R81). -/
  | complete
  /-- Code 11h (R86). -/
  | completeTop
  /-- Code 12h, the tag in ARG0 (R89). -/
  | discard
  /-- Code 13h, the tag in ARG0 (R164). -/
  | getEntry
  /-- Code 20h, its arguments in ARG0 to ARG3 (R12). -/
  | setLine
  /-- Code 21h, source in ARG0, line in ARG1 (R18). -/
  | getLine
  /-- Code 30h, node in ARG0, limit and join in ARG1 (R140). -/
  | setNode
  /-- Code 31h, node in ARG0 (R142). -/
  | getNode
  /-- Code 38h, DIV, reply wait and fault limit in ARG0 to ARG2 (R141). -/
  | setLink
  /-- Code 32h, node in ARG0 (R138). -/
  | retire
  /-- One step of the RETIRE walk (R39). -/
  | retireWalkStep
  /-- A low level on nRST held for `periods` REFCLK periods, and its release (R170). -/
  | pinReset (periods : Nat)
  /-- A choice of the Scheduler (R115). -/
  | schedulerChoice
  /-- The end of the last bit of the check byte of the frame in flight (R102). -/
  | frameTransmitted
  /-- The reply wait has passed with no start bit (R103). -/
  | replyWaitExpiry
  /-- The end of a reply read to its end; `ldi` is what LDI was sampled as, bit time by bit time, after the start bit
  (R104, R106). -/
  | replyReceived (ldi : List Bool)
  /-- 40 bit times after the start bit of a reply with a framing error (R105). -/
  | drainEnd
  /-- The end of the guard (R100). -/
  | guardEnd
  /-- Admission's take of the record in the holding buffer (R122). -/
  | admissionTake
  /-- The Local Event Unit raises and posts one condition that a block has handed to it (R144, R30). -/
  | localPosting (c : LocalCondition)
  /-- LDI is first sampled 0 in window bit time `k` (R103). -/
  | startBit (k : Nat)
  /-- The end of the byte holding an invalid field; `ldi` is what LDI was sampled as, bit time by bit time, after the start
  bit (R104, R105). -/
  | framingError (ldi : List Bool)
  deriving DecidableEq, Repr

end Sys2Proof
end

