-- ==== Sys2Proof/Machine/Frames.lean ====
section
/-! DEFINITION. Bit fields of bytes, the check byte, the frame layouts of the Event Link, and how a reply is read
(Chapter 6). Nothing here reads the state. -/

namespace Sys2Proof.Machine

/-! ## Bit fields -/

/-- The value of the `width` bits of `b` from bit `lo` up (bit 0 is the least significant). -/
def bits (b : Byte) (lo width : Nat) : Nat := b.toNat / 2 ^ lo % 2 ^ width

/-- Bit `i` of `b`. -/
def bit (b : Byte) (i : Nat) : Bool := b.getLsbD i

/-- The contribution of value `v` standing at bit `lo` of a byte. -/
def field (lo v : Nat) : Nat := v * 2 ^ lo

/-- The contribution of flag `f` standing at bit `lo` of a byte. -/
def flag (lo : Nat) (f : Bool) : Nat := field lo f.toNat

/-- The byte made of contributions of `field` and `flag`. -/
def packed (n : Nat) : Byte := BitVec.ofNat 8 n

/-! ## The check byte -/

/-- One advance of the check register: a shift toward bit 7, and an exclusive-or with 07h when the bit dropped was 1
(R98). -/
def crcAdvance (r : Byte) : Byte := if r.msb then (r <<< 1) ^^^ 0x07#8 else r <<< 1

/-- One byte taken into the check register: an exclusive-or, then eight advances (R98). -/
def crcByte (r b : Byte) : Byte := Nat.iterate crcAdvance 8 (r ^^^ b)

/-- The check byte of a run of bytes under a seed (R98). -/
def crc8 (seed : Byte) (bytes : List Byte) : Byte := bytes.foldl crcByte seed

/-- The seed of a downstream frame (R98). -/
def downSeed : Byte := 0x00#8

/-- The seed of a reply in a window opened for node `n` (R98). -/
def replySeed (n : Node) : Byte := BitVec.ofNat 8 n.val

/-! ## Downstream frames -/

/-- The frame kind field (R99). -/
def FrameKind.code : FrameKind → Nat
  | .poll => 1
  | .probe => 2
  | .done => 3
  | .admitFrame => 4
  | .eject => 5

/-- The outcome field of a DONE (R99). -/
def DoneOutcome.code : DoneOutcome → Nat
  | .serviced => 0
  | .discarded => 1
  | .withdrawn => 2

/-- Byte 0 of a downstream frame: kind in bits 7 to 4, destination in bits 3 to 0 (R99). -/
def leadByte (dest : Node) (kind : FrameKind) : Byte := packed (field 4 kind.code + field 0 dest.val)

/-- The argument byte of a POLL (R99, R126). -/
def pollArg (lastAck : Seq) (ackValid newEntry hold : Bool) : Byte :=
  packed (field 0 lastAck.val + flag 3 ackValid + flag 4 newEntry + flag 5 hold)

/-- The frame kind of a queued frame (R120). -/
def OutBody.kind : OutBody → FrameKind
  | .done _ _ => .done
  | .admitFrame _ => .admitFrame
  | .eject => .eject

/-- The argument byte of a queued frame (R99). -/
def OutBody.arg : OutBody → Byte
  | .done line outcome => packed (field 0 line.val + field 3 outcome.code)
  | .admitFrame limit => packed (field 0 limit.val)
  | .eject => 0x00#8

/-- The frame as it is loaded, its check byte computed at the load (R98, R101). -/
def TxFrame.build (dest : Node) (kind : FrameKind) (arg : Byte) : TxFrame :=
  { dest, kind, arg, check := crc8 downSeed [leadByte dest kind, arg] }

/-- The three bytes of a downstream frame in the order sent (R97, R99). -/
def TxFrame.bytes (f : TxFrame) : List Byte := [leadByte f.dest f.kind, f.arg, f.check]

/-- Whether the frame opens a reply window, and as which kind of slot (R101: POLL and PROBE do). -/
def TxFrame.window (f : TxFrame) : Option SlotKind :=
  match f.kind with
  | .poll => some .poll
  | .probe => some .probe
  | .done => none
  | .admitFrame => none
  | .eject => none

/-- The bits of a byte as they are sent, least significant first (R97). -/
def byteBits (b : Byte) : List Bool :=
  [bit b 0, bit b 1, bit b 2, bit b 3, bit b 4, bit b 5, bit b 6, bit b 7]

/-- The bits of a run of bytes as they are sent, upstream and downstream: back to back (R97). -/
def wireBits (bytes : List Byte) : List Bool := bytes.flatMap byteBits

/-- The bits of a downstream frame on LDO: the start bit 0, then its bytes (R97). -/
def TxFrame.wire (f : TxFrame) : List Bool := false :: wireBits f.bytes

/-! ## Replies -/

/-- The byte that eight samples make, the first of them its least significant bit (R104). -/
def byteOfSamples (b : Nat → Bool) : Byte :=
  packed (flag 0 (b 0) + flag 1 (b 1) + flag 2 (b 2) + flag 3 (b 3) + flag 4 (b 4) + flag 5 (b 5) + flag 6 (b 6) +
    flag 7 (b 7))

/-- The `i`-th byte assembled from the samples of LDI after the start bit, eight to a byte: where the node has stopped
driving, LDI is high and the bits read as 1 (R104). -/
def sample (ldi : List Bool) (i : Nat) : Byte := byteOfSamples fun j => ldi.getD (8 * i + j) true

/-- The first `n` bytes assembled from the samples of LDI after the start bit. -/
def samples (ldi : List Bool) (n : Nat) : List Byte := (List.range n).map (sample ldi)

/-- The event kind field (R99); 11 is invalid. -/
def eventKindOf : Nat → Option EventKind
  | 0 => some .pulse
  | 1 => some .assert
  | 2 => some .release
  | _ => none

/-- How the Link Engine reads what LDI carries after the start bit: the fields are judged as their bytes complete,
the first invalid one is a framing error, and otherwise the lead byte gives the length (R99, R104, R105). -/
def readReply (ldi : List Bool) : ReplyRead :=
  let lead := sample ldi 0
  match bits lead 0 2 with
  | 0 => .complete (samples ldi 2) .idle
  | 1 =>
    let len := bits lead 5 2
    if len = 3 then .framing (samples ldi 1)
    else
      let second := sample ldi 1
      match eventKindOf (bits second 0 2) with
      | none => .framing (samples ldi 2)
      | some kind =>
        .complete (samples ldi (len + 3))
          (.event (Fin.ofNat 8 (bits lead 2 3)) (bit lead 7) kind (Fin.ofNat 8 (bits second 2 3))
            ((samples ldi (len + 2)).drop 2))
  | 2 => .complete (samples ldi 3) (.hello (Fin.ofNat 9 (bits (sample ldi 1) 0 3 + 1)))
  | _ => .framing (samples ldi 1)

/-- The judgment of a reply read to its end: its last byte against the check byte of the bytes before it, under the
seed of the node addressed (R106). -/
def checkPasses (n : Node) (bytes : List Byte) : Bool :=
  bytes.getLast? == some (crc8 (replySeed n) bytes.dropLast)

end Sys2Proof.Machine
end

