-- ==== Sys2Proof/Machine/Codes.lean ====
section
/-! DEFINITION. The numbers by which the host names commands, results, reasons, modes and registers (R157, R166). -/

namespace Sys2Proof.Machine

/-- The command a code written to CMD names (R166); every other code, 00h included, names none. -/
def CmdCode.ofByte (b : Byte) : Option CmdCode :=
  match b.toNat with
  | 0x01 => some .start
  | 0x02 => some .stop
  | 0x03 => some .resume
  | 0x04 => some .restart
  | 0x10 => some .complete
  | 0x11 => some .completeTop
  | 0x12 => some .discard
  | 0x13 => some .getEntry
  | 0x20 => some .setLine
  | 0x21 => some .getLine
  | 0x30 => some .setNode
  | 0x31 => some .getNode
  | 0x32 => some .retire
  | 0x38 => some .setLink
  | _ => none

/-- The value of RES for a result (R157). -/
def ResultCode.byte : ResultCode → Byte
  | .ok => 0x00#8
  | .badCmd => 0x01#8
  | .badMode => 0x02#8
  | .badArg => 0x03#8
  | .noTag => 0x04#8
  | .inService => 0x05#8
  | .queueFull => 0x06#8
  | .inUse => 0x07#8
  | .noNode => 0x08#8

/-- The reason field of CW_FLG in a null record (R166). -/
def NullReason.code : NullReason → Nat
  | .untouched => 0
  | .none => 1
  | .stackFull => 2
  | .notRunning => 3
  | .queueFull => 4

/-- The mode field of STAT (R166). -/
def Mode.code : Mode → Nat
  | .config => 0
  | .run => 1
  | .stopping => 2
  | .paused => 3

/-- A register of the host window (R153). -/
inductive Reg
  | stat
  | cmdRes
  | arg (i : Fin 4)
  | claim
  | cwSrc
  | cwLvl
  | cwFlg
  | cwPl0
  | cwPl1
  | floor
  | top
  | lven (r : LvenReg)
  deriving DecidableEq, Repr

/-- The register an address selects (R153). -/
def Reg.ofAddr (a : BitVec 4) : Reg :=
  match a.toNat with
  | 0x0 => .stat
  | 0x1 => .cmdRes
  | 0x2 => .arg 0
  | 0x3 => .arg 1
  | 0x4 => .arg 2
  | 0x5 => .arg 3
  | 0x6 => .claim
  | 0x7 => .cwSrc
  | 0x8 => .cwLvl
  | 0x9 => .cwFlg
  | 0xA => .cwPl0
  | 0xB => .cwPl1
  | 0xC => .floor
  | 0xD => .top
  | 0xE => .lven .lven0
  | _ => .lven .lven1

/-- Whether a write to the register has a behaviour of its own: CMD, FLOOR and the LVENs (R153). The table gives those
writes rows of their own, and REGISTER_WRITE the rest. -/
def Reg.ownWrite : Reg → Bool
  | .cmdRes => true
  | .floor => true
  | .lven _ => true
  | _ => false

end Sys2Proof.Machine
end

