-- ==== Sys2Proof/Config.lean ====
section
/-! DEFINITION. The sizes the spec fixes for this part, and the values it leaves open as constants with no body. -/

namespace Sys2Proof.Config

/-- Slots of the Pending Table (R21). -/
def slotCount : Nat := 32

/-- The most entries the Service Stack holds (R70). -/
def stackMax : Nat := 8

/-- The most frames the Outbound Queue holds (R120). -/
def queueMax : Nat := 16

/-- The remote pool's limit (R25). -/
def poolMax : Nat := 24

/-- The value at which an entry's count stops (R29). -/
def countMax : Nat := 15

/-- REFCLK periods for which nRST must be low for a pin reset to be taken for certain (R170). -/
def resetPeriods : Nat := 4

/-- FREE VALUE. Whether the `i`-th low pulse on nRST that is shorter than `resetPeriods` is taken as a pin reset:
R170 says it "may or may not be taken". No body: nothing can be proved of it (assumption log entry 6). -/
opaque shortResetTaken : Nat → Bool

/-- FREE VALUE. Whether the PROTOCOL_FAULT of a sequence fault that loses its node is posted with the judgment, as R125 has it,
or waits to be posted as a request of its own, before or after NODE_LOST, as R146 has it. No body: nothing can be proved of it
(assumption log entry 25). -/
opaque faultPostedAtLoss : Nat → Bool

end Sys2Proof.Config
end

