-- ==== Sys2Proof/Machine/State.lean ====
section
/-! DEFINITION. The state of the IPD2416 as plain data, the reasons a command can stop, and the state after a pin reset.
What the spec derives when it is asked for (occupancy, candidates, the interrupt request, the STAT flags, BUSY, the pool
count, held credits, TOP, LCK and LDO) is not stored but computed, in Ops, Resolver and Flags (log entry 13). -/

namespace Sys2Proof.Machine

/-- One entry of the Line Map (R6). -/
structure LineConfig where
  level  : Level
  kind   : Kind
  enable : Bool
  auto   : Bool
  deriving DecidableEq, Repr

/-- An entry of the Pending Table (R21). -/
structure Entry where
  tag     : Tag
  source  : Source
  line    : Line
  kind    : Kind
  count   : Nat
  payload : List Byte
  stale   : Bool
  repost  : Bool
  deriving DecidableEq, Repr

/-- An entry of the Service Stack: the claimed entry, its captured level and its released flag (R69). -/
structure StackEntry where
  entry    : Entry
  level    : Level
  released : Bool
  deriving DecidableEq, Repr

/-- The record of a successful claim in the Claim Window (R75). -/
structure ClaimRecord where
  source  : Source
  line    : Line
  level   : Level
  count   : Nat
  held    : Bool
  auto    : Bool
  stale   : Bool
  repost  : Bool
  payload : List Byte
  deriving DecidableEq, Repr

/-- The Claim Window: a null record with its reason, or the record of a claim (R75). -/
inductive ClaimWindow
  | null (reason : NullReason)
  | claimed (record : ClaimRecord)
  deriving DecidableEq, Repr

/-- The Command Unit: IDLE, or BUSY with the long command in its span (R156). The walks carry the next slot to visit
(R39, R41). -/
inductive CommandUnit
  | idle
  | stop
  | retire (node : Node) (next : Fin 32)
  | restart (next : Fin 32)
  deriving DecidableEq, Repr

/-- The states of a node (R130). -/
inductive NodeState
  | absent
  | joining
  | active
  | lost
  | leaving
  deriving DecidableEq, Repr

/-- A node record (R130). -/
structure NodeRecord where
  state         : NodeState
  join          : Bool
  configLimit   : Credit
  admittedLimit : Credit
  expected      : Seq
  lastAck       : Seq
  ackValid      : Bool
  newEntry      : Bool
  faults        : Nat
  declared      : Fin 9
  deriving DecidableEq, Repr

/-- The burst flag (R113). -/
inductive BurstFlag
  | clear
  | armed (n : Node)
  | spent
  deriving DecidableEq, Repr

/-- The states of the Link Engine (R100). -/
inductive LinkState
  | idle
  | send
  | wait
  | read
  | drain
  | guard
  deriving DecidableEq, Repr

/-- The state of the block. -/
structure State where
  /-- The mode (R158). -/
  mode : Mode
  /-- The Command Unit: current command and, through it, BUSY (R156). -/
  command : CommandUnit
  /-- CMDLOST (R154). -/
  cmdLost : Bool
  /-- RES (R157). -/
  res : ResultCode
  /-- ARG0 (R157). -/
  arg0 : Byte
  /-- ARG1 (R157). -/
  arg1 : Byte
  /-- ARG2 (R157). -/
  arg2 : Byte
  /-- ARG3 (R157). -/
  arg3 : Byte
  /-- The Claim Window (R75). -/
  window : ClaimWindow
  /-- FLOOR (R46). -/
  floor : Level
  /-- The level enables of levels 0 to 7 (R45). -/
  lven0 : Byte
  /-- The level enables of levels 8 to 15 (R45). -/
  lven1 : Byte
  /-- The Line Map, indexed by source and then line (R6). -/
  lineMap : Vector (Vector LineConfig 8) 16
  /-- The Pending Table (R21). -/
  table : Vector (Option Entry) 32
  /-- The last allocated tag (R23). -/
  lastTag : Tag
  /-- The rotation pointers, one for each level (R43). -/
  rotation : Vector Source 16
  /-- The Service Stack, bottom first (R69). -/
  stack : List StackEntry
  /-- The Outbound Queue, head first (R120). -/
  queue : List OutFrame
  /-- The node records (R130). -/
  nodes : Vector NodeRecord 15
  /-- DIV (R131). -/
  div : Nat
  /-- The reply wait (R131). -/
  replyWait : Nat
  /-- The fault limit (R131). -/
  faultLimit : Nat
  /-- The Scheduler's ring position; 15 when a pass has just ended (R113). -/
  ring : Fin 16
  /-- The Scheduler's discovery pointer (R113). -/
  discovery : Node
  /-- The Scheduler's burst flag (R113). -/
  burst : BurstFlag
  /-- The Scheduler's outbound count (R113). -/
  outCount : Nat
  /-- The state of the Link Engine (R100). -/
  link : LinkState
  /-- The transmit buffer (R101). -/
  txBuffer : Option TxFrame
  /-- The receive shift register: the bytes assembled and not yet discarded, as they stand at the latest happening of the
  link (R104, R105, log entry 10). -/
  shiftReg : List Byte
  /-- The receive holding buffer (R108). -/
  holding : Option ReplyRecord
  /-- The bit timer: the bit times of the slot counted at the latest happening of the link (R100, log entry 8). -/
  bitTimer : Nat
  /-- DIV as read at the start of the slot (R96). -/
  slotDiv : Nat
  /-- The reply wait as read at the start of the slot (R96). -/
  slotWait : Nat
  /-- MODEL'S OWN. The value that the latest STAT read or claim read returned; none before the first (log entry 7). -/
  readData : Option Byte
  /-- MODEL'S OWN. The conditions that blocks have handed to the Local Event Unit and that are not yet raised and posted,
  oldest first (R146, log entry 4). -/
  raised : List LocalCondition
  /-- MODEL'S OWN. How many free values have been used (log entries 6 and 25). -/
  freeCount : Nat
  /-- MODEL'S OWN. The commands that are waiting, first in, first out. -/
  pending : List Instr
  deriving DecidableEq, Repr

/-- Why the machine stops. Both faults stand for states that the spec's laws exclude, so no run from reset meets them
(log entry 11). -/
inductive Fault
  /-- Raised by the insertion of an entry when all 32 slots are full. Safe: R25 and R148 say there is always a slot. -/
  | noFreeSlot
  /-- Raised by the insertion of an entry when all 63 tags are live. Safe: R23 says the search always ends at a free
  tag. -/
  | noFreeTag
  deriving DecidableEq, Repr

/-- Why a command has no meaning. -/
inductive Refusal
  /-- Raised by an arm of `exec` whose command has no meaning yet; no arm answers it now. Safe: the machine stops. -/
  | notModelled (mnemonic : String)
  deriving DecidableEq, Repr

/-- A Line Map entry after a pin reset (R7). -/
def LineConfig.reset : LineConfig := { level := 0, kind := .edge, enable := false, auto := false }

/-- A node record after a pin reset (R130). -/
def NodeRecord.reset : NodeRecord :=
  { state := .absent, join := false, configLimit := 4, admittedLimit := 0, expected := 0, lastAck := 0,
    ackValid := false, newEntry := false, faults := 0, declared := 0 }

/-- The block after a pin reset: R7, R42, R58, R74, R77, R112, R113, R131, R143, R165. The log names the values of
`bitTimer` (entry 8), `slotDiv` and `slotWait` (entry 9), `readData` (entry 7), `raised` (entry 4) and `freeCount`
(entry 6). -/
def State.reset : State where
  mode := .config
  command := .idle
  cmdLost := false
  res := .ok
  arg0 := 0x00#8
  arg1 := 0x00#8
  arg2 := 0x00#8
  arg3 := 0x00#8
  window := .null .untouched
  floor := 0
  lven0 := 0xFF#8
  lven1 := 0xFF#8
  lineMap := Vector.replicate 16 (Vector.replicate 8 LineConfig.reset)
  table := Vector.replicate 32 none
  lastTag := 63
  rotation := Vector.replicate 16 15
  stack := []
  queue := []
  nodes := Vector.replicate 15 NodeRecord.reset
  div := 99
  replyWait := 12
  faultLimit := 3
  ring := 14
  discovery := 14
  burst := .clear
  outCount := 0
  link := .idle
  txBuffer := none
  shiftReg := []
  holding := none
  bitTimer := 0
  slotDiv := 99
  slotWait := 12
  readData := none
  raised := []
  freeCount := 0
  pending := []

end Sys2Proof.Machine
end

