-- ==== Sys2Proof/Machine/Ops.lean ====
section
/-! DEFINITION. The shared operations on the tables, the stack, the queue and the node records: each block's requests as
the spec words them. What can meet a full Pending Table answers `Except Fault`. -/

namespace Sys2Proof.Machine

/-! ## Tables of fixed length -/

/-- `f` applied to every element, by structural recursion on the list of them. -/
def mapSlots {α β : Type} {n : Nat} (f : α → β) (v : Vector α n) : Vector β n :=
  ⟨⟨v.toList.map f⟩, by simp⟩

/-- Every slot of the Pending Table in ascending order (R21). -/
def slots : List (Fin 32) := List.finRange 32

/-- Every remote node in ascending order (R1). -/
def nodeList : List Node := List.finRange 15

/-! ## Outcomes -/

/-- The outcome of a meaning that can meet a fault. -/
def settle : Except Fault State → Host.Outcome State Fault Refusal
  | .ok s => .next s
  | .error f => .fault f

/-! ## The Line Map -/

/-- The Line Map entry of a line (R6). -/
def State.lineConfig (s : State) (src : Source) (line : Line) : LineConfig := s.lineMap[src][line]

/-- The Line Map with one entry replaced, all four fields together (R6, R13). -/
def State.setLineConfig (s : State) (src : Source) (line : Line) (c : LineConfig) : State :=
  { s with lineMap := s.lineMap.set src (s.lineMap[src].set line c) }

/-! ## Entries -/

/-- The node an entry belongs to; none for a local entry (R1). -/
def nodeOf (src : Source) : Option Node := if h : src.val < 15 then some ⟨src.val, h⟩ else none

/-- Whether an entry is remote (R1). -/
def Entry.remote (e : Entry) : Bool := (nodeOf e.source).isSome

/-- Whether an entry is on the line (src, line). -/
def Entry.on (e : Entry) (src : Source) (line : Line) : Bool := decide (e.source = src) && decide (e.line = line)

/-- Whether an entry belongs to remote node `n`. -/
def Entry.ofNode (e : Entry) (n : Node) : Bool := decide (e.source = n.source)

/-- The entry with its stale flag set (R21: once yes, it stays yes). -/
def Entry.markStale (e : Entry) : Entry := { e with stale := true }

/-! ## The Pending Table -/

/-- The entries of the Pending Table, in slot order. -/
def State.pendingEntries (s : State) : List Entry := s.table.toList.filterMap id

/-- The lowest slot whose entry satisfies `p`, and that entry. -/
def State.findPending (s : State) (p : Entry → Bool) : Option (Fin 32 × Entry) :=
  slots.findSome? fun i => (s.table[i].filter p).map fun e => (i, e)

/-- The pending entry of a line and its slot (R22). -/
def State.pendingOn (s : State) (src : Source) (line : Line) : Option (Fin 32 × Entry) :=
  s.findPending fun e => e.on src line

/-- The pending entry that holds a tag and its slot (R23). -/
def State.pendingTagged (s : State) (t : Tag) : Option (Fin 32 × Entry) :=
  s.findPending fun e => decide (e.tag = t)

/-- The Pending Table with one slot replaced. -/
def State.setSlot (s : State) (i : Fin 32) (e : Option Entry) : State := { s with table := s.table.set i e }

/-- The Pending Table with every entry passed through `f`; an answer of none removes the entry. -/
def State.mapPending (s : State) (f : Entry → Option Entry) : State :=
  { s with table := mapSlots (fun o => o.bind f) s.table }

/-- The lowest-numbered empty slot (R21). -/
def State.freeSlot (s : State) : Option (Fin 32) := slots.find? fun i => s.table[i].isNone

/-! ## Tags -/

/-- Whether an entry in the Pending Table or on the Service Stack holds the tag (R23). -/
def State.tagLive (s : State) (t : Tag) : Bool :=
  s.pendingEntries.any (fun e => decide (e.tag = t)) || s.stack.any (fun e => decide (e.entry.tag = t))

/-- The 63 tags in the order the allocator tries them: upward from the tag after the last allocated one, wrapping from 63
to 1 (R23). -/
def tagOrder (last : Tag) : List Tag := (List.range 63).map fun i => Fin.ofNat 64 ((last.val + i) % 63 + 1)

/-- The first tag of that order that is not live (R23). -/
def State.nextTag (s : State) : Option Tag := (tagOrder s.lastTag).find? fun t => !s.tagLive t

/-- The insertion of a new entry: the lowest-numbered empty slot, a tag from the allocator, count 1, stale no
(R21, R23). -/
def State.insertEntry (s : State) (src : Source) (line : Line) (kind : Kind) (payload : List Byte) (repost : Bool) :
    Except Fault State :=
  match s.freeSlot, s.nextTag with
  | none, _ => .error .noFreeSlot
  | some _, none => .error .noFreeTag
  | some i, some t =>
    .ok { s.setSlot i (some { tag := t, source := src, line, kind, count := 1, payload, stale := false, repost }) with
      lastTag := t }

/-- A count raised by one and held at 15 (R29, R30). -/
def countUp (n : Nat) : Nat := min (n + 1) Config.countMax

/-- The union of two node sets, byte by byte (R30); two empty lists give the empty list. -/
def unionSets (a b : List Byte) : List Byte := List.zipWith (· ||| ·) a b

/-! ## The remote pool and credits -/

/-- The remote pool count: remote entries in the Pending Table and on the Service Stack (R25). -/
def State.poolCount (s : State) : Nat :=
  s.pendingEntries.countP Entry.remote + s.stack.countP fun e => e.entry.remote

/-- Whether a queued frame is a DONE for node `n`. -/
def OutFrame.doneFor (f : OutFrame) (n : Node) : Bool := decide (f.dest = n) && decide (f.body.kind = .done)

/-- Whether an entry counts among node `n`'s held credits: its own and non-stale (R26). -/
def Entry.creditOf (e : Entry) (n : Node) : Bool := e.ofNode n && !e.stale

/-- A node's held credits: its non-stale entries pending and in service, and the DONE frames queued for it (R26). -/
def State.heldCredits (s : State) (n : Node) : Nat :=
  s.pendingEntries.countP (·.creditOf n) + s.stack.countP (·.entry.creditOf n) + s.queue.countP (·.doneFor n)

/-- The capacity test for a new remote entry of node `n` (R26). -/
def State.hasCapacity (s : State) (n : Node) : Bool :=
  decide (s.poolCount < Config.poolMax) && decide (s.heldCredits n < s.nodes[n].admittedLimit.val)

/-! ## The Outbound Queue -/

/-- Whether the Outbound Queue has no free slot (R120). -/
def State.queueFull (s : State) : Bool := decide (Config.queueMax ≤ s.queue.length)

/-- A frame appended at the tail; the writer has checked for a free slot (R120). -/
def State.append (s : State) (dest : Node) (body : OutBody) : State := { s with queue := s.queue ++ [{ dest, body }] }

/-- Removal by destination: every DONE for node `n` leaves the queue (R121). -/
def State.removeDones (s : State) (n : Node) : State := { s with queue := s.queue.filter fun f => !f.doneFor n }

/-! ## The Service Stack -/

/-- Whether the Service Stack holds 8 entries (R62). -/
def State.stackFull (s : State) : Bool := decide (Config.stackMax ≤ s.stack.length)

/-- The topmost stack entry (R47). -/
def State.topEntry (s : State) : Option StackEntry := s.stack.getLast?

/-- The captured level of the topmost stack entry; absent while the stack is empty (R47). -/
def State.topLevel (s : State) : Option Level := s.topEntry.map (·.level)

/-- The stack entry that holds a tag. -/
def State.stackTagged (s : State) (t : Tag) : Option StackEntry := s.stack.find? fun e => decide (e.entry.tag = t)

/-- A push at the top (R70). -/
def State.push (s : State) (e : Entry) (level : Level) : State :=
  { s with stack := s.stack ++ [{ entry := e, level, released := false }] }

/-- Removal of the stack entry that holds a tag, whatever its position; the entries above move down (R71). -/
def State.removeStacked (s : State) (t : Tag) : State :=
  { s with stack := s.stack.eraseP fun e => decide (e.entry.tag = t) }

/-- Whether a stack entry is a non-stale, unreleased entry of the line: it blocks an ASSERT (R5) and takes the mark of a
RELEASE (R73). -/
def StackEntry.holdsLine (e : StackEntry) (src : Source) (line : Line) : Bool :=
  e.entry.on src line && !e.entry.stale && !e.released

/-- The stack with its lowest non-stale, unreleased HELD entry of the line marked released (R73). -/
def markReleased (src : Source) (line : Line) : List StackEntry → List StackEntry
  | [] => []
  | e :: rest =>
    if e.holdsLine src line && decide (e.entry.kind = .held) then { e with released := true } :: rest
    else e :: markReleased src line rest

/-- The stale mark on every stack entry of node `n` (R72). -/
def State.markStacked (s : State) (n : Node) : State :=
  { s with stack := s.stack.map fun e => if e.entry.ofNode n then { e with entry := e.entry.markStale } else e }

/-! ## The node records -/

/-- The Node Table with one record replaced. -/
def State.setNode (s : State) (n : Node) (r : NodeRecord) : State := { s with nodes := s.nodes.set n r }

/-- Whether node `n` is ACTIVE. -/
def State.isActive (s : State) (n : Node) : Bool := decide (s.nodes[n].state = .active)

/-- The record with its sequence and acknowledgement fields cleared (R133, R137, R139). -/
def NodeRecord.clearSequence (r : NodeRecord) : NodeRecord :=
  { r with expected := 0, lastAck := 0, ackValid := false, newEntry := false, faults := 0 }

/-- The record after RESTART: the dynamic fields at their reset values, join and configured limit kept (R130, R143). -/
def NodeRecord.restarted (r : NodeRecord) : NodeRecord :=
  { NodeRecord.reset with join := r.join, configLimit := r.configLimit }

/-! ## Conditions for the Local Event Unit -/

/-- The local line a condition names (R145). -/
def LocalCondition.line : LocalCondition → Line
  | .nodeJoined _ => 0
  | .nodeLost _ => 1
  | .nodeRestarted _ => 2
  | .linkFault _ => 3
  | .protocolFault _ => 4
  | .rxOverrun _ => 5
  | .nodeLeft _ => 7

/-- The local line of COMMAND_DONE (R145). -/
def commandDoneLine : Line := 6

/-- The node a condition concerns (R145). -/
def LocalCondition.node : LocalCondition → Node
  | .nodeJoined n => n
  | .nodeLost n => n
  | .nodeRestarted n => n
  | .linkFault n => n
  | .protocolFault n => n
  | .rxOverrun n => n
  | .nodeLeft n => n

/-- The node set of one node, as the two payload bytes (R144). -/
def nodeSet (n : Node) : List Byte :=
  [BitVec.ofNat 8 (2 ^ n.val), BitVec.ofNat 8 (2 ^ n.val / 256)]

/-- A condition handed to the Local Event Unit: its posting is a request of its own, taken later (R146). -/
def State.raise (s : State) (c : LocalCondition) : State := { s with raised := s.raised ++ [c] }

/-- A local posting: nothing on a disabled line; else a merge into the pending entry of the line, or an insertion
(R30, R144). -/
def State.post (s : State) (line : Line) (payload : List Byte) : Except Fault State :=
  if (s.lineConfig localSource line).enable then
    match s.pendingOn localSource line with
    | some (i, e) =>
      .ok (s.setSlot i (some { e with count := countUp e.count, payload := unionSets e.payload payload }))
    | none => s.insertEntry localSource line .edge payload false
  else .ok s

/-- The posting of a raised condition (R144). -/
def State.postCondition (s : State) (c : LocalCondition) : Except Fault State := s.post c.line (nodeSet c.node)

/-- COMMAND_DONE, with its empty payload (R145, R151). -/
def State.postCommandDone (s : State) : Except Fault State := s.post commandDoneLine []

/-- Every condition waiting at the Local Event Unit posted, oldest first. -/
def State.postRaised (s : State) : Except Fault State :=
  s.raised.foldlM State.postCondition { s with raised := [] }

/-! ## Transitions of a node -/

/-- What becomes of node `n`'s work when it leaves ACTIVE by loss or restart: EDGE pending entries marked stale, HELD
ones removed (R36), stack entries marked stale (R72), DONE frames removed from the queue (R121). -/
def State.dismissWork (s : State) (n : Node) : State :=
  ((s.mapPending fun e =>
      if e.ofNode n then (if e.kind = .edge then some e.markStale else none) else some e).markStacked n).removeDones n

/-- The transition to LOST (R136), with NODE_LOST raised after it. `faults` is the count that reached the limit. -/
def State.loseNode (s : State) (n : Node) (faults : Nat) : State :=
  ((s.setNode n { s.nodes[n] with state := .lost, admittedLimit := 0, faults }).dismissWork n).raise (.nodeLost n)

/-- A fault counted against node `n`, if it is ACTIVE (R135). -/
def State.countFault (s : State) (n : Node) : State :=
  let r := s.nodes[n]
  if r.state = .active then
    if s.faultLimit ≤ r.faults + 1 then s.loseNode n (r.faults + 1)
    else s.setNode n { r with faults := r.faults + 1 }
  else s

/-- Node `n` taken to JOINING with the declared lines of its HELLO, and its ADMIT queued (R133, R137). -/
def State.admitNode (s : State) (n : Node) (declared : Fin 9) : State :=
  let r := s.nodes[n]
  (s.setNode n { r.clearSequence with state := .joining, declared, admittedLimit := r.configLimit }).append n
    (.admitFrame r.configLimit)

/-! ## The end of a command -/

/-- BUSY (R156). -/
def State.busy (s : State) : Bool := decide (s.command ≠ .idle)

/-- The state with a result in RES. -/
def State.withRes (s : State) (r : ResultCode) : State := { s with res := r }

/-- A write of a command code: ignored with CMDLOST while BUSY, otherwise the command is taken (R155, R156). -/
def State.taken (s : State) (command : Host.Outcome State Fault Refusal) : Host.Outcome State Fault Refusal :=
  if s.busy then .next { s with cmdLost := true } else command

/-- The end of STOP: PAUSED, COMMAND_DONE posted, OK in RES and BUSY clear, in one happening; the conditions raised
before it are posted before COMMAND_DONE (R151, R160, log entry 5). -/
def State.endStop (s : State) : Except Fault State := do
  let s ← s.postRaised
  let s ← s.postCommandDone
  pure { s with mode := .paused, command := .idle, res := .ok }

end Sys2Proof.Machine
end

