-- ==== Sys2Proof/Machine/Resolver.lean ====
section
/-! DEFINITION. Resolution: candidates, winner and the interrupt request (Chapter 3). -/

namespace Sys2Proof.Machine

/-- Whether a level is enabled among the level enables (R45). -/
def State.levelEnabled (s : State) (l : Level) : Bool :=
  if l.val < 8 then bit s.lven0 l.val else bit s.lven1 (l.val - 8)

/-- The three candidate tests of a level (R48). -/
def State.levelPasses (s : State) (l : Level) : Bool :=
  s.levelEnabled l && decide (s.floor ≤ l) &&
    (match s.topLevel with
     | none => true
     | some top => decide (top < l))

/-- The level a pending entry's line has in the Line Map now (R3). -/
def State.lineLevel (s : State) (e : Entry) : Level := (s.lineConfig e.source e.line).level

/-- Whether a pending entry is a candidate (R48). -/
def State.isCandidate (s : State) (e : Entry) : Bool := s.levelPasses (s.lineLevel e)

/-- The candidates (R48). -/
def State.candidates (s : State) : List Entry := s.pendingEntries.filter s.isCandidate

/-- The levels from the most urgent down (R3). -/
def levelsDown : List Level := (List.finRange 16).reverse

/-- The sources in ascending cyclic order from the one after `p`, ending with `p` (R49). -/
def sourcesAfter (p : Source) : List Source := (List.range 16).map fun i => Fin.ofNat 16 (p.val + 1 + i)

/-- The lines in ascending order. -/
def linesUp : List Line := List.finRange 8

/-- The winner's slot and entry: the highest level of any candidate, then the first source after that level's rotation
pointer, then the lowest line (R49). -/
def State.winner (s : State) : Option (Fin 32 × Entry) := do
  let level ← levelsDown.find? fun l => s.candidates.any fun e => decide (s.lineLevel e = l)
  let atLevel := s.candidates.filter fun e => decide (s.lineLevel e = level)
  let src ← (sourcesAfter s.rotation[level]).find? fun c => atLevel.any fun e => decide (e.source = c)
  let line ← linesUp.find? fun l => atLevel.any fun e => e.on src l
  s.pendingOn src line

/-- Whether IRQ is asserted (R53). -/
def State.irq (s : State) : Bool :=
  decide (s.mode ≠ .config) && decide (s.stack.length < Config.stackMax) && !s.candidates.isEmpty

end Sys2Proof.Machine
end

