-- ==== Sys2Proof/Machine/Flags.lean ====
section
/-! DEFINITION. Every flag and derived indication the host or the link sees: the STAT flags (R154), the occupancy of a line
(R11), the hold indication (R126), and the levels of the output pins (R95, R170). -/

namespace Sys2Proof.Machine

/-- POOLFULL (R25). -/
def State.poolFull (s : State) : Bool := decide (Config.poolMax ≤ s.poolCount)

/-- The hold indication of a POLL to node `n` (R126). -/
def State.hold (s : State) (n : Node) : Bool :=
  s.poolFull || decide (s.nodes[n].admittedLimit.val ≤ s.heldCredits n)

/-- STAT as a read returns it (R154, R166). -/
def State.statByte (s : State) : Byte :=
  packed (field 0 s.mode.code + flag 2 s.busy + flag 3 s.cmdLost + flag 4 s.irq + flag 5 s.stackFull +
    flag 6 s.poolFull + flag 7 s.queueFull)

/-- The number of stack entries of a line, stale or not (R11). -/
def State.inService (s : State) (src : Source) (line : Line) : Nat := s.stack.countP (·.entry.on src line)

/-- The pending indication (R11). -/
def State.linePending (s : State) (src : Source) (line : Line) : Bool := s.pendingEntries.any (·.on src line)

/-- The released indication (R11). -/
def State.lineReleased (s : State) (src : Source) (line : Line) : Bool :=
  s.stack.any fun e => e.entry.on src line && e.released

/-- The stale indication (R11). -/
def State.lineStale (s : State) (src : Source) (line : Line) : Bool :=
  s.pendingEntries.any (fun e => e.on src line && e.stale) || s.stack.any fun e => e.entry.on src line && e.entry.stale

/-- Whether a line is occupied (R11). -/
def State.occupied (s : State) (src : Source) (line : Line) : Bool :=
  s.linePending src line || decide (0 < s.inService src line)

/-- Whether Admission is held: from the start of a RETIRE until its walk ends (R38, R39). -/
def State.admissionHeld (s : State) : Bool :=
  match s.command with
  | .retire _ _ => true
  | .idle => false
  | .stop => false
  | .restart _ => false

/-- Whether a slot is in flight (R100). -/
def State.slotInFlight (s : State) : Bool := decide (s.link ≠ .idle)

/-- Whether the Link Engine runs LCK; it holds LCK low otherwise (R95, R100). -/
def State.lckRunning (s : State) : Bool :=
  match s.link with
  | .idle => false
  | .send => true
  | .wait => true
  | .read => true
  | .drain => true
  | .guard => false

/-- The REFCLK periods of one bit time of the slot, by the DIV its start read (R96). -/
def State.bitPeriods (s : State) : Nat := 2 * (s.slotDiv + 1)

/-! The output pins take the level of nRST (low is `false`), because R170 gives their states while it is low, whether or not
the pulse is taken as a pin reset. Once nRST is high again they follow the state (log entry 24). -/

/-- The level of LCK in REFCLK period `i` of a bit time, counted from 0: low for the first DIV + 1 periods and high for the
second DIV + 1 while it runs (R96), low otherwise (R95) and while nRST is low (R112, R170). -/
def State.lck (s : State) (nRST : Bool) (i : Nat) : Bool :=
  nRST && s.lckRunning && decide (s.slotDiv + 1 ≤ i % s.bitPeriods)

/-- The level of LDO in bit time `i` of the slot, counted from 0: the bits of the frame in SEND (R97), high otherwise (R95)
and while nRST is low (R112, R170). -/
def State.ldo (s : State) (nRST : Bool) (i : Nat) : Bool :=
  match nRST, s.link, s.txBuffer with
  | true, .send, some f => f.wire.getD i true
  | _, _, _ => true

/-- The level of the IRQ output, low while asserted; `true` is released, as it is while nRST is low (R53, R170). -/
def State.irqPin (s : State) (nRST : Bool) : Bool := !(nRST && s.irq)

end Sys2Proof.Machine
end

