-- ==== Sys2Proof/Machine/Operands.lean ====
section
/-! DEFINITION. Where the commands take their arguments and how the host-visible registers are laid out (R157, R166). -/

namespace Sys2Proof.Machine

/-! ## Arguments -/

/-- The tag a byte names: 1 to 63; 0 and the values above 63 name none (R81, R89, R164). -/
def tagOfByte (b : Byte) : Option Tag :=
  if h : b.toNat < 64 then (if b.toNat = 0 then none else some ⟨b.toNat, h⟩) else none

/-- The tag of a tag byte's register value (R166). -/
def tagByte (t : Tag) : Byte := BitVec.ofNat 8 t.val

/-- The node a byte names: 0 to 14 (R138, R140, R142). -/
def nodeOfByte (b : Byte) : Option Node := if h : b.toNat < 15 then some ⟨b.toNat, h⟩ else none

/-- The line that a source byte and a line byte name (R12, R18). -/
def lineOfBytes (src line : Byte) : Option (Source × Line) :=
  if h : src.toNat < 16 ∧ line.toNat < 8 then some (⟨src.toNat, h.1⟩, ⟨line.toNat, h.2⟩) else none

/-- The kind a kind bit stands for: 1 HELD (R166). -/
def kindOfBit (b : Bool) : Kind := if b then .held else .edge

/-- Whether a kind is HELD, as the kind bits report it (R166). -/
def Kind.isHeld (k : Kind) : Bool := decide (k = .held)

/-- The four fields SET_LINE supplies, from ARG2 and ARG3 (R166). -/
def configOfArgs (arg2 arg3 : Byte) : LineConfig :=
  { level := Fin.ofNat 16 (bits arg2 0 4), kind := kindOfBit (bit arg3 1), enable := bit arg3 0, auto := bit arg3 2 }

/-- The configured limit SET_NODE supplies, from ARG1 (R166). -/
def limitOfArg (arg1 : Byte) : Credit := Fin.ofNat 8 (bits arg1 0 3)

/-- The join setting SET_NODE supplies, from ARG1 (R166). -/
def joinOfArg (arg1 : Byte) : Bool := bit arg1 3

/-! ## Results -/

/-- ARG2 after GET_LINE (R18, R166). -/
def lineConfigByte (c : LineConfig) : Byte :=
  packed (field 0 c.level.val + flag 4 c.enable + flag 5 c.kind.isHeld + flag 6 c.auto)

/-- ARG3 after GET_LINE: the four occupancy indications (R11, R166). -/
def State.occupancyByte (s : State) (src : Source) (line : Line) : Byte :=
  packed (flag 0 (s.linePending src line) + flag 1 (s.lineReleased src line) + flag 2 (s.lineStale src line) +
    field 4 (s.inService src line))

/-- The state field of GET_NODE (R166). -/
def NodeState.code : NodeState → Nat
  | .absent => 0
  | .joining => 1
  | .active => 2
  | .lost => 3
  | .leaving => 4

/-- ARG0 after GET_NODE (R166). -/
def NodeRecord.byte0 (r : NodeRecord) : Byte :=
  packed (field 0 r.state.code + flag 3 r.join + field 4 r.declared.val)

/-- ARG1 after GET_NODE (R166). -/
def NodeRecord.byte1 (r : NodeRecord) : Byte :=
  packed (field 0 r.expected.val + field 3 r.lastAck.val + flag 6 r.ackValid + flag 7 r.newEntry)

/-- ARG2 after GET_NODE (R166). -/
def NodeRecord.byte2 (r : NodeRecord) : Byte := packed (field 0 r.admittedLimit.val + field 4 r.configLimit.val)

/-- ARG3 after GET_NODE (R166). -/
def NodeRecord.byte3 (r : NodeRecord) : Byte := packed (field 0 r.faults)

/-- Where GET_ENTRY finds a tag (R164). -/
inductive Location
  | none
  | pending
  | serving
  deriving DecidableEq, Repr

/-- The location field (R166). -/
def Location.code : Location → Nat
  | .none => 0
  | .pending => 1
  | .serving => 2

/-- ARG1 after GET_ENTRY (R166). -/
def entryByte1 (loc : Location) (level : Level) : Byte := packed (field 0 loc.code + field 4 level.val)

/-- ARG2 after GET_ENTRY (R166). -/
def entryByte2 (e : Entry) : Byte := packed (field 0 e.line.val + flag 3 e.kind.isHeld + field 4 e.source.val)

/-- ARG3 after GET_ENTRY (R166). -/
def entryByte3 (e : Entry) (released : Bool) : Byte :=
  packed (field 0 e.count + flag 4 e.stale + flag 5 e.repost + flag 6 released)

/-! ## The Claim Window's registers -/

/-- CW_SRC (R75, R166). -/
def ClaimWindow.src : ClaimWindow → Byte
  | .null _ => 0x00#8
  | .claimed r => packed (field 4 r.source.val + field 0 r.line.val)

/-- CW_LVL (R75, R166). -/
def ClaimWindow.lvl : ClaimWindow → Byte
  | .null _ => 0x00#8
  | .claimed r => packed (field 4 r.level.val + field 0 r.count)

/-- CW_FLG: bit 7 is 1 in a claimed record; a null record carries its reason (R75, R166). -/
def ClaimWindow.flg : ClaimWindow → Byte
  | .null reason => packed (field 0 reason.code)
  | .claimed r =>
    packed (flag 0 r.held + flag 1 r.auto + flag 2 r.stale + flag 3 r.repost + field 4 r.payload.length + flag 7 true)

/-- CW_PL0: the first payload byte, or 0 (R75). -/
def ClaimWindow.pl0 : ClaimWindow → Byte
  | .null _ => 0x00#8
  | .claimed r => r.payload.getD 0 0x00#8

/-- CW_PL1: the second payload byte, or 0 (R75). -/
def ClaimWindow.pl1 : ClaimWindow → Byte
  | .null _ => 0x00#8
  | .claimed r => r.payload.getD 1 0x00#8

/-- TOP: the top level, 0 when the depth is 0, and the depth (R78, R166). -/
def State.topByte (s : State) : Byte :=
  packed (field 4 (match s.topLevel with
    | none => 0
    | some l => l.val) + field 0 s.stack.length)

end Sys2Proof.Machine
end

