-- ==== Sys2Proof/Machine/Admission.lean ====
section
/-! DEFINITION. ADMISSION_TAKE: what the concentrator makes of a reply (R117, R122 to R125, R132, R133, R137). -/

namespace Sys2Proof.Machine

/-! ## HELLO -/

/-- A join request of an ABSENT or LOST node; with no free queue slot it is ignored (R133). -/
def State.joinRequest (s : State) (n : Node) (declared : Fin 9) : State :=
  if s.queueFull then s else s.admitNode n declared

/-- A restart of an ACTIVE node, in the order of R137: its work is dismissed and its sequence fields cleared; then it goes
to JOINING if join is yes and the queue has a free slot, else to LOST. NODE_RESTARTED is raised after it. -/
def State.restartNode (s : State) (n : Node) (declared : Fin 9) : State :=
  let s := (s.dismissWork n).setNode n s.nodes[n].clearSequence
  let s :=
    if s.nodes[n].join && !s.queueFull then s.admitNode n declared
    else s.setNode n { s.nodes[n] with state := .lost, admittedLimit := 0 }
  s.raise (.nodeRestarted n)

/-- A HELLO, by the state and join setting of its node (R132). -/
def State.hello (s : State) (n : Node) (declared : Fin 9) : State :=
  match s.nodes[n].state with
  | .absent => if s.nodes[n].join then s.joinRequest n declared else s
  | .lost => if s.nodes[n].join then s.joinRequest n declared else s
  | .active => s.restartNode n declared
  | .joining => s
  | .leaving => s

/-! ## EVENT -/

/-- The rows of the decision table (R124). 2a and 5a carry the pending entry and its slot. -/
inductive EventRow
  | row1a
  | row1b
  | row2a (slot : Fin 32) (e : Entry)
  | row2b
  | row2c
  | row3a
  | row3b
  | row3c
  | row4
  | row5a (slot : Fin 32) (e : Entry)
  | row5b
  | row5c
  | row5d
  deriving DecidableEq, Repr

/-- Whether a frame's kind suits the kind of its line (R124, row 1b). -/
def EventKind.suits : EventKind → Kind → Bool
  | .pulse, .edge => true
  | .pulse, .held => false
  | .assert, .edge => false
  | .assert, .held => true
  | .release, .edge => false
  | .release, .held => true

/-- The row of an accepted PULSE on an enabled line (R124, rows 2a to 2c). -/
def State.pulseRow (s : State) (n : Node) (line : Line) : EventRow :=
  match s.pendingOn n.source line with
  | some (slot, e) => .row2a slot e
  | none => if s.hasCapacity n then .row2b else .row2c

/-- Whether a non-stale entry of the line is pending, and which (R124). -/
def State.freshPending (s : State) (src : Source) (line : Line) : Option (Fin 32 × Entry) :=
  s.findPending fun e => e.on src line && !e.stale

/-- The row of an ASSERT on an enabled line (R124, rows 3a to 3c). -/
def State.assertRow (s : State) (n : Node) (line : Line) : EventRow :=
  if (s.freshPending n.source line).isSome || s.stack.any (·.holdsLine n.source line) then .row3a
  else if s.hasCapacity n then .row3b
  else .row3c

/-- The row of a RELEASE (R124, rows 5a to 5d). -/
def State.releaseRow (s : State) (n : Node) (line : Line) : EventRow :=
  match s.freshPending n.source line with
  | some (slot, e) => if s.queueFull then .row5b else .row5a slot e
  | none =>
    if s.stack.any fun e => e.holdsLine n.source line && decide (e.entry.kind = .held) then .row5c else .row5d

/-- The first row of the decision table that fits an EVENT at the expected sequence (R124). -/
def State.eventRow (s : State) (n : Node) (kind : EventKind) (line : Line) : EventRow :=
  let c := s.lineConfig n.source line
  if s.nodes[n].declared.val ≤ line.val then .row1a
  else if !kind.suits c.kind then .row1b
  else
    match kind with
    | .pulse => if c.enable then s.pulseRow n line else .row4
    | .assert => if c.enable then s.assertRow n line else .row4
    | .release => s.releaseRow n line

/-- Whether a row accepts the frame; none when it is refused, else the new-entry indication (R124). -/
def EventRow.accepts : EventRow → Option Bool
  | .row1a => some false
  | .row1b => some false
  | .row2a _ _ => some false
  | .row2b => some true
  | .row2c => none
  | .row3a => some false
  | .row3b => some true
  | .row3c => none
  | .row4 => some false
  | .row5a _ _ => some false
  | .row5b => none
  | .row5c => some false
  | .row5d => some false

/-- Whether a row raises PROTOCOL_FAULT (R124). -/
def EventRow.raisesFault : EventRow → Bool
  | .row1a => true
  | .row1b => true
  | .row3a => true
  | .row2a _ _ => false
  | .row2b => false
  | .row2c => false
  | .row3b => false
  | .row3c => false
  | .row4 => false
  | .row5a _ _ => false
  | .row5b => false
  | .row5c => false
  | .row5d => false

/-- A merge of a PULSE: the count rises and the payload is replaced (R29). -/
def Entry.merge (e : Entry) (payload : List Byte) : Entry := { e with count := countUp e.count, payload }

/-- The effect of a row on the tables: merge (R29), insertion with the kind of the line (R28), withdrawal (R34), released
mark (R73), or none. -/
def State.applyRow (s : State) (row : EventRow) (n : Node) (line : Line) (payload : List Byte) : Except Fault State :=
  match row with
  | .row2a slot e => .ok (s.setSlot slot (some (e.merge payload)))
  | .row2b => s.insertEntry n.source line (s.lineConfig n.source line).kind payload false
  | .row3b => s.insertEntry n.source line (s.lineConfig n.source line).kind payload false
  | .row5a slot e => .ok ((s.setSlot slot none).append n (.done e.line .withdrawn))
  | .row5c => .ok { s with stack := markReleased n.source line s.stack }
  | .row1a => .ok s
  | .row1b => .ok s
  | .row2c => .ok s
  | .row3a => .ok s
  | .row3c => .ok s
  | .row4 => .ok s
  | .row5b => .ok s
  | .row5d => .ok s

/-- The arming of the burst flag by an accepted EVENT of node `n` with MORE set (R117). -/
def BurstFlag.arm (b : BurstFlag) (n : Node) (more : Bool) : BurstFlag :=
  if more then
    match b with
    | .clear => .armed n
    | .armed _ => .armed n
    | .spent => .spent
  else b

/-- The record of an accepted frame under sequence `seq` (R123). -/
def NodeRecord.accept (r : NodeRecord) (seq : Seq) (newEntry : Bool) : NodeRecord :=
  { r with expected := seq + 1, lastAck := seq, ackValid := true, newEntry, faults := 0 }

/-- An EVENT at the expected sequence: decided by R124, accepted or refused (R123). -/
def State.decideEvent (s : State) (n : Node) (seq : Seq) (more : Bool) (kind : EventKind) (line : Line)
    (payload : List Byte) : Except Fault State := do
  let row := s.eventRow n kind line
  let t ← s.applyRow row n line payload
  match row.accepts with
  | none => pure (t.setNode n { t.nodes[n] with faults := 0 })
  | some newEntry =>
    let t := { t.setNode n (t.nodes[n].accept seq newEntry) with burst := t.burst.arm n more }
    pure (if row.raisesFault then t.raise (.protocolFault n) else t)

/-- A sequence fault of the ACTIVE node `n`: one fault, and PROTOCOL_FAULT (R123). While the node stays ACTIVE the posting is
taken together with the judgment (R125). When the fault loses the node it is taken so too (R125), after the changes of the loss
and before NODE_LOST, or both wait as requests of their own, in either order (R146): `atOnce` says which (log entry 25). -/
def State.sequenceFault (s : State) (n : Node) (atOnce : Bool) : Except Fault State :=
  let t := s.countFault n
  if t.isActive n then t.postCondition (.protocolFault n)
  else
    let t := { t with freeCount := s.freeCount + 1 }
    if atOnce then t.postCondition (.protocolFault n) else .ok (t.raise (.protocolFault n))

/-- An EVENT in reply to a POLL from the ACTIVE node `n`, judged first by its sequence number (R123). -/
def State.judgeEvent (s : State) (n : Node) (seq : Seq) (more : Bool) (kind : EventKind) (line : Line)
    (payload : List Byte) : Except Fault State :=
  let r := s.nodes[n]
  if seq = r.expected then s.decideEvent n seq more kind line payload
  else if seq = r.expected - 1 ∧ r.ackValid then
    .ok { s.setNode n { r with faults := 0 } with burst := s.burst.arm n more }
  else s.sequenceFault n (Config.faultPostedAtLoss s.freeCount)

/-! ## The take -/

/-- The handling of a record by slot, reply type and node state (R122). -/
def State.handleReply (s : State) (r : ReplyRecord) : Except Fault State :=
  match r.slot, r.reply with
  | _, .hello declared => .ok (s.hello r.node declared)
  | .probe, .idle => .ok s
  | .probe, .event _ _ _ _ _ => .ok s
  | .poll, .idle =>
    .ok (if s.isActive r.node then s.setNode r.node { s.nodes[r.node] with faults := 0 } else s)
  | .poll, .event seq more kind line payload =>
    if s.isActive r.node then s.judgeEvent r.node seq more kind line payload else .ok s

/-- ADMISSION_TAKE: the record leaves a full holding buffer when Admission is not held, and is acted on, in one happening
(R108, R122, R125). -/
def execAdmissionTake (s : State) : Host.Outcome State Fault Refusal :=
  match s.holding with
  | none => .next s
  | some r => if s.admissionHeld then .next s else settle (State.handleReply { s with holding := none } r)

end Sys2Proof.Machine
end

