-- ==== Sys2Proof/WellFormed.lean ====
section
/-! DEFINITION. Which terms of Instr are commands of the table: the checks on operands that hold whatever the state.
An ill-formed term still runs (assumption log entries 3, 10 and 18): the check says which terms the table means. -/

namespace Sys2Proof

open Machine

/-- The operand check of each command: REGISTER_WRITE is a write to a register with no behaviour of its own (R153);
BAD_CMD carries a code that names no command (R155); a start bit falls in window bit time 1 to 31, the longest reply
wait (R103, R131); the samples of REPLY_RECEIVED are exactly the bits of a reply read to its end (R97, R104), and those of
FRAMING_ERROR exactly the bits up to the end of the byte with the invalid field (R105). -/
def wellFormed : Instr → Bool
  | .registerWrite addr _ => !(Reg.ofAddr addr).ownWrite
  | .badCmd code => (CmdCode.ofByte code).isNone
  | .startBit k => decide (1 ≤ k ∧ k ≤ 31)
  | .replyReceived ldi =>
    match readReply ldi with
    | .complete bytes _ => decide (wireBits bytes = ldi)
    | .framing _ => false
  | .framingError ldi =>
    match readReply ldi with
    | .complete _ _ => false
    | .framing bytes => decide (wireBits bytes = ldi)
  | .statRead => true
  | .claim => true
  | .floorWrite _ => true
  | .lvenWrite _ _ => true
  | .start => true
  | .stop => true
  | .resume => true
  | .restart => true
  | .restartClearStep => true
  | .complete => true
  | .completeTop => true
  | .discard => true
  | .getEntry => true
  | .setLine => true
  | .getLine => true
  | .setNode => true
  | .getNode => true
  | .setLink => true
  | .retire => true
  | .retireWalkStep => true
  | .pinReset _ => true
  | .schedulerChoice => true
  | .frameTransmitted => true
  | .replyWaitExpiry => true
  | .drainEnd => true
  | .guardEnd => true
  | .admissionTake => true
  | .localPosting _ => true

end Sys2Proof
end

