-- ==== Sys2Proof/Decode.lean ====
section
/-! DEFINITION. From the host bus to commands. The block has no instruction words: spec/opcode_table.json gives its rows
no bits, so `decodeTableWord` answers none on every word (assumption log entry 20). What the host can spell is a bus
access: an address, a direction and a data byte (R153, R170), and `busAccess` reads the command it stands for. -/

namespace Sys2Proof

open Machine

/-- The command that a word spells by the table's bits: no row of the table has bits. -/
def decodeTableWord (_nbits _w : Nat) : Option Instr := none

/-- The row of the table that a command code stands for (R166). -/
def CmdCode.instr : CmdCode → Instr
  | .start => .start
  | .stop => .stop
  | .resume => .resume
  | .restart => .restart
  | .complete => .complete
  | .completeTop => .completeTop
  | .discard => .discard
  | .getEntry => .getEntry
  | .setLine => .setLine
  | .getLine => .getLine
  | .setNode => .setNode
  | .getNode => .getNode
  | .retire => .retire
  | .setLink => .setLink

/-- The command that a host write of `value` at `addr` is (R153, R155, R166). -/
def hostWrite (addr : BitVec 4) (value : Byte) : Instr :=
  match Reg.ofAddr addr with
  | .cmdRes =>
    match CmdCode.ofByte value with
    | some c => CmdCode.instr c
    | none => .badCmd value
  | .floor => .floorWrite value
  | .lven r => .lvenWrite r value
  | _ => .registerWrite addr value

/-- The command that a host read at `addr` is: only STAT and CLAIM have side effects (R153); every other read changes
nothing and is no row of the table. -/
def hostRead (addr : BitVec 4) : Option Instr :=
  match Reg.ofAddr addr with
  | .stat => some .statRead
  | .claim => some .claim
  | _ => none

/-- The command of a host bus access, from the levels of nCS, nRD, nWR and nRST (low is `false`): a read or a write needs
nCS low and exactly one strobe low; both strobes low is neither (R170). While nRST is low reads are not answered and writes
are ignored, CMDLOST included (R165). -/
def busAccess (nCS nRD nWR nRST : Bool) (addr : BitVec 4) (data : Byte) : Option Instr :=
  match nCS, nRD, nWR, nRST with
  | false, false, true, true => hostRead addr
  | false, true, false, true => some (hostWrite addr data)
  | _, _, _, _ => none

end Sys2Proof
end

