-- ==== Sys2Proof/Machine/Claims.lean ====
section
/-! DEFINITION. CLAIM: the claim read (Chapter 4). -/

namespace Sys2Proof.Machine

/-- The stale mark at the claim: a remote entry whose node is not ACTIVE is claimed stale (R66). -/
def State.markAtClaim (s : State) (e : Entry) : Entry :=
  match nodeOf e.source with
  | none => e
  | some n => if s.isActive n then e else e.markStale

/-- The node to which an entry's end must be notified: that of a remote, non-stale entry (R94). -/
def Entry.notice (e : Entry) : Option Node := if e.stale then none else nodeOf e.source

/-- The DONE of an entry that ends, queued when one is owed (R94). -/
def State.notify (s : State) (e : Entry) (outcome : DoneOutcome) : State :=
  match e.notice with
  | none => s
  | some n => s.append n (.done e.line outcome)

/-- What a claim does: the null record with its reason, an AUTO claim, or an ordinary claim; the entry carries the
stale mark of R66 (R60). -/
inductive ClaimDecision
  | null (reason : NullReason)
  | auto (slot : Fin 32) (e : Entry)
  | ordinary (slot : Fin 32) (e : Entry)
  deriving DecidableEq, Repr

/-- The first case of R60 that holds. -/
def State.claimDecision (s : State) : ClaimDecision :=
  if s.mode = .config then .null .notRunning
  else if s.stackFull then .null .stackFull
  else
    match s.winner with
    | none => .null .none
    | some (i, e) =>
      let e := s.markAtClaim e
      if (s.lineConfig e.source e.line).auto then
        if e.notice.isSome && s.queueFull then .null .queueFull else .auto i e
      else .ordinary i e

/-- The record of a successful claim (R75). -/
def claimRecord (e : Entry) (level : Level) (auto : Bool) : ClaimRecord :=
  { source := e.source, line := e.line, level, count := e.count, held := e.kind.isHeld, auto, stale := e.stale,
    repost := e.repost, payload := e.payload }

/-- What every successful claim leaves beside the tables: the rotation pointer of the winner's level at its source
(R51), the Claim Window (R75), and the tag as the value of the read (R59). -/
def State.fillWindow (s : State) (e : Entry) (level : Level) (auto : Bool) : State :=
  { s with
    rotation := s.rotation.set level e.source
    window := .claimed (claimRecord e level auto)
    readData := some (tagByte e.tag) }

/-- The claim that takes nothing (R60, R75). -/
def State.claimNull (s : State) (reason : NullReason) : State :=
  { s with window := .null reason, readData := some 0x00#8 }

/-- The ordinary claim: the entry leaves its slot and is pushed with its captured level (R65). -/
def State.claimOrdinary (s : State) (slot : Fin 32) (e : Entry) : State :=
  ((s.setSlot slot none).push e (s.lineLevel e)).fillWindow e (s.lineLevel e) false

/-- The AUTO claim: the entry leaves the device, with a DONE SERVICED when it is remote and non-stale (R67). -/
def State.claimAuto (s : State) (slot : Fin 32) (e : Entry) : State :=
  ((s.setSlot slot none).notify e .serviced).fillWindow e (s.lineLevel e) true

/-- CLAIM (R59). -/
def execClaim (s : State) : Host.Outcome State Fault Refusal :=
  match s.claimDecision with
  | .null reason => .next (s.claimNull reason)
  | .auto slot e => .next (s.claimAuto slot e)
  | .ordinary slot e => .next (s.claimOrdinary slot e)

end Sys2Proof.Machine
end

