-- ==== Sys2Proof/Machine/Completion.lean ====
section
/-! DEFINITION. COMPLETE, COMPLETE_TOP, DISCARD and GET_ENTRY: the commands that name an entry by its tag (Chapter 5, R164). -/

namespace Sys2Proof.Machine

/-- How a stack entry ends when it is completed (R82): L, S, E, R and P. E and R carry the node that is notified. -/
inductive EndCase
  | localEntry
  | staleEntry
  | edgeEntry (n : Node)
  | releasedEntry (n : Node)
  | repostEntry
  deriving DecidableEq, Repr

/-- The case of a stack entry. R82: each entry falls into exactly one row of its table, and every remote, non-stale, unreleased
HELD entry into row P. R90 also writes "P′" beside P; no rule defines such a case, and it is none here. -/
def StackEntry.endCase (e : StackEntry) : EndCase :=
  match nodeOf e.entry.source with
  | none => .localEntry
  | some n =>
    if e.entry.stale then .staleEntry
    else if e.entry.kind = .edge then .edgeEntry n
    else if e.released then .releasedEntry n
    else .repostEntry

/-- The end of a stack entry with no notice: cases L and S (R83). -/
def State.endSilently (s : State) (e : StackEntry) : State :=
  { s.removeStacked e.entry.tag with arg1 := 0x00#8, res := .ok }

/-- The end of a stack entry with DONE SERVICED, or QUEUE_FULL: cases E and R (R81, R84). -/
def State.endWithDone (s : State) (e : StackEntry) (n : Node) : State :=
  if s.queueFull then s.withRes .queueFull
  else { (s.removeStacked e.entry.tag).append n (.done e.entry.line .serviced) with arg1 := 0x00#8, res := .ok }

/-- The repost: the occurrence returns to the Pending Table under a new tag, allocated while the old tag is live, and the
stack entry is removed (R31, R85); ARG1 receives the new tag (R87). -/
def State.repost (s : State) (e : StackEntry) : Except Fault State := do
  let s ← s.insertEntry e.entry.source e.entry.line .held e.entry.payload true
  pure { s.removeStacked e.entry.tag with arg1 := tagByte s.lastTag, res := .ok }

/-- The completion of a stack entry by its case (R82). -/
def State.completeEntry (s : State) (e : StackEntry) : Except Fault State :=
  match e.endCase with
  | .localEntry => .ok (s.endSilently e)
  | .staleEntry => .ok (s.endSilently e)
  | .edgeEntry n => .ok (s.endWithDone e n)
  | .releasedEntry n => .ok (s.endWithDone e n)
  | .repostEntry => s.repost e

/-- COMPLETE (R81). -/
def execComplete (s : State) : Host.Outcome State Fault Refusal :=
  s.taken <|
    if s.mode = .config then .next (s.withRes .badMode)
    else
      match (tagOfByte s.arg0).bind s.stackTagged with
      | none => .next (s.withRes .noTag)
      | some e => settle (s.completeEntry e)

/-- COMPLETE_TOP: COMPLETE applied to the top entry, whose tag ARG0 receives on OK and on QUEUE_FULL (R86). -/
def execCompleteTop (s : State) : Host.Outcome State Fault Refusal :=
  s.taken <|
    if s.mode = .config then .next (s.withRes .badMode)
    else
      match s.topEntry with
      | none => .next (s.withRes .noTag)
      | some e => settle (State.completeEntry { s with arg0 := tagByte e.entry.tag } e)

/-- The discard of a pending entry: DONE DISCARDED when it is remote and non-stale, which needs a queue slot (R35). -/
def State.discardEntry (s : State) (slot : Fin 32) (e : Entry) : State :=
  if e.notice.isSome && s.queueFull then s.withRes .queueFull
  else ((s.setSlot slot none).notify e .discarded).withRes .ok

/-- DISCARD (R89). -/
def execDiscard (s : State) : Host.Outcome State Fault Refusal :=
  s.taken <|
    if s.mode = .config then .next (s.withRes .badMode)
    else
      match tagOfByte s.arg0 with
      | none => .next (s.withRes .noTag)
      | some t =>
        match s.stackTagged t with
        | some _ => .next (s.withRes .inService)
        | none =>
          match s.pendingTagged t with
          | none => .next (s.withRes .noTag)
          | some (slot, e) => .next (s.discardEntry slot e)

/-- GET_ENTRY's report of an entry found (R164). -/
def State.reportEntry (s : State) (loc : Location) (level : Level) (e : Entry) (released : Bool) : State :=
  { s with arg1 := entryByte1 loc level, arg2 := entryByte2 e, arg3 := entryByte3 e released, res := .ok }

/-- GET_ENTRY's report of a tag that is not live (R164). -/
def State.reportNoEntry (s : State) : State :=
  { s with arg1 := entryByte1 .none 0, arg2 := 0x00#8, arg3 := 0x00#8, res := .noTag }

/-- GET_ENTRY (R164). -/
def execGetEntry (s : State) : Host.Outcome State Fault Refusal :=
  s.taken <|
    match tagOfByte s.arg0 with
    | none => .next s.reportNoEntry
    | some t =>
      match s.pendingTagged t with
      | some (_, e) => .next (s.reportEntry .pending (s.lineLevel e) e false)
      | none =>
        match s.stackTagged t with
        | some e => .next (s.reportEntry .serving e.level e.entry e.released)
        | none => .next s.reportNoEntry

end Sys2Proof.Machine
end

