-- ==== Sys2Proof/Machine/Configuration.lean ====
section
/-! DEFINITION. SET_LINE, GET_LINE, SET_NODE, GET_NODE and SET_LINK: the configuration of lines, nodes and link
(Chapters 1 and 8). -/

namespace Sys2Proof.Machine

/-- The checks of SET_LINE after the address, in the order of R12; none when the entry may be written. -/
def State.setLineCheck (s : State) (src : Source) (line : Line) (c : LineConfig) : Option ResultCode :=
  if src = localSource ∧ c.kind = .held then some .badArg
  else if c.kind = .held ∧ c.auto then some .badArg
  else if c.kind ≠ (s.lineConfig src line).kind ∧ s.occupied src line then some .inUse
  else none

/-- SET_LINE (R12, R13). -/
def execSetLine (s : State) : Host.Outcome State Fault Refusal :=
  s.taken <|
    match lineOfBytes s.arg0 s.arg1 with
    | none => .next (s.withRes .badArg)
    | some (src, line) =>
      let c := configOfArgs s.arg2 s.arg3
      match s.setLineCheck src line c with
      | some r => .next (s.withRes r)
      | none => .next ((s.setLineConfig src line c).withRes .ok)

/-- GET_LINE (R18). -/
def execGetLine (s : State) : Host.Outcome State Fault Refusal :=
  s.taken <|
    match lineOfBytes s.arg0 s.arg1 with
    | none => .next (s.withRes .badArg)
    | some (src, line) =>
      .next { s with
        arg2 := lineConfigByte (s.lineConfig src line), arg3 := s.occupancyByte src line, res := .ok }

/-- SET_NODE (R140). -/
def execSetNode (s : State) : Host.Outcome State Fault Refusal :=
  s.taken <|
    match nodeOfByte s.arg0 with
    | none => .next (s.withRes .badArg)
    | some n =>
      if limitOfArg s.arg1 = 0 then .next (s.withRes .badArg)
      else
        .next ((s.setNode n
          { s.nodes[n] with join := joinOfArg s.arg1, configLimit := limitOfArg s.arg1 }).withRes .ok)

/-- GET_NODE (R142). -/
def execGetNode (s : State) : Host.Outcome State Fault Refusal :=
  s.taken <|
    match nodeOfByte s.arg0 with
    | none => .next (s.withRes .badArg)
    | some n =>
      .next { s with
        arg0 := s.nodes[n].byte0, arg1 := s.nodes[n].byte1, arg2 := s.nodes[n].byte2, arg3 := s.nodes[n].byte3,
        res := .ok }

/-- Whether SET_LINK's reply wait and fault limit are in range (R141). -/
def linkArgsValid (wait limit : Nat) : Bool :=
  decide (4 ≤ wait) && decide (wait ≤ 31) && decide (1 ≤ limit) && decide (limit ≤ 7)

/-- SET_LINK (R141). -/
def execSetLink (s : State) : Host.Outcome State Fault Refusal :=
  s.taken <|
    if s.mode = .config ∨ s.mode = .paused then
      if linkArgsValid s.arg1.toNat s.arg2.toNat then
        .next { s with
          div := s.arg0.toNat, replyWait := s.arg1.toNat, faultLimit := s.arg2.toNat, res := .ok }
      else .next (s.withRes .badArg)
    else .next (s.withRes .badMode)

end Sys2Proof.Machine
end

