-- ==== Sys2Proof/Machine/Modes.lean ====
section
/-! DEFINITION. START, STOP, RESUME, RESTART with its clearing walk, and PIN_RESET: the commands and the pin that change the
mode (R158 to R162, R170). -/

namespace Sys2Proof.Machine

/-- START (R159). The Scheduler's first choice is a SCHEDULER_CHOICE of its own (R114, log entry 12). -/
def execStart (s : State) : Host.Outcome State Fault Refusal :=
  s.taken <|
    if s.mode = .config then .next { s with mode := .run, res := .ok } else .next (s.withRes .badMode)

/-- STOP (R160). -/
def execStop (s : State) : Host.Outcome State Fault Refusal :=
  s.taken <|
    if s.mode = .run then
      if s.slotInFlight then .next { s with mode := .stopping, command := .stop } else settle s.endStop
    else .next (s.withRes .badMode)

/-- RESUME (R161). The Scheduler's choice is a SCHEDULER_CHOICE of its own (R114, log entry 12). -/
def execResume (s : State) : Host.Outcome State Fault Refusal :=
  s.taken <|
    if s.mode = .paused then .next { s with mode := .run, res := .ok } else .next (s.withRes .badMode)

/-- The Link Engine after RESTART has cut off the slot in flight: IDLE stays IDLE, any other state is or becomes GUARD
(R111). -/
def LinkState.cutOff : LinkState → LinkState
  | .idle => .idle
  | .send => .guard
  | .wait => .guard
  | .read => .guard
  | .drain => .guard
  | .guard => .guard

/-- The first part of RESTART, one happening (R162). -/
def State.beginRestart (s : State) : State :=
  { s with
    command := .restart 0
    mode := .config
    link := s.link.cutOff
    txBuffer := none
    shiftReg := []
    holding := none
    stack := []
    queue := []
    nodes := mapSlots NodeRecord.restarted s.nodes
    rotation := Vector.replicate 16 15
    ring := 14
    discovery := 14
    burst := .clear
    outCount := 0
    window := .null .untouched
    raised := [] }

/-- RESTART (R162). -/
def execRestart (s : State) : Host.Outcome State Fault Refusal :=
  s.taken <| .next s.beginRestart

/-- The next slot of a walk; none after slot 31 (R39, R41). -/
def nextSlot (i : Fin 32) : Option (Fin 32) := if h : i.val + 1 < 32 then some ⟨i.val + 1, h⟩ else none

/-- RESTART_CLEAR_STEP: one slot is emptied; after step 31 the last allocated tag is 63, RES receives OK and BUSY is
cleared (R41, R162). With no RESTART in its walk there is no such step (log entry 3). -/
def execRestartClearStep (s : State) : Host.Outcome State Fault Refusal :=
  match s.command with
  | .restart i =>
    match nextSlot i with
    | some j => .next { s.setSlot i none with command := .restart j }
    | none => .next { s.setSlot i none with command := .idle, lastTag := 63, res := .ok }
  | .idle => .next s
  | .stop => .next s
  | .retire _ _ => .next s

/-- The block after a pin reset; the model's own command queue and count of free values go on. -/
def State.pinReset (s : State) : State := { State.reset with pending := s.pending, freeCount := s.freeCount }

/-- PIN_RESET: a low level held for 4 REFCLK periods or more is taken; a shorter one may or may not be, which is a free
value, and when it is not taken the state is unchanged (R170, log entry 6). -/
def execPinReset (periods : Nat) (s : State) : Host.Outcome State Fault Refusal :=
  if Config.resetPeriods ≤ periods then .next s.pinReset
  else
    let s' := { s with freeCount := s.freeCount + 1 }
    if Config.shortResetTaken s.freeCount then .next s'.pinReset else .next s'

end Sys2Proof.Machine
end

