-- ==== Sys2Proof/Machine/Retire.lean ====
section
/-! DEFINITION. RETIRE and its purge walk (R38, R39, R138). -/

namespace Sys2Proof.Machine

/-- The first set of changes of RETIRE, made whole before the walk: the node goes to LEAVING with join no, its DONE frames
leave the queue, its stack and pending entries are marked stale, an EJECT is queued, and the walk holds Admission
(R38, R138). -/
def State.beginRetire (s : State) (n : Node) : State :=
  { (((((s.setNode n { s.nodes[n] with state := .leaving, join := false, admittedLimit := 0 }).removeDones n).markStacked
      n).mapPending fun e => some (if e.ofNode n then e.markStale else e)).append n .eject) with
    command := .retire n 0 }

/-- RETIRE (R138). -/
def execRetire (s : State) : Host.Outcome State Fault Refusal :=
  s.taken <|
    if s.mode = .config then .next (s.withRes .badMode)
    else
      match nodeOfByte s.arg0 with
      | none => .next (s.withRes .badArg)
      | some n =>
        if s.nodes[n].state = .absent then .next (s.withRes .noNode)
        else if s.queueFull then .next (s.withRes .queueFull)
        else .next (s.beginRetire n)

/-- The slot of a purge step: an entry of node `n` is removed, anything else stays (R39). -/
def State.purgeSlot (s : State) (n : Node) (i : Fin 32) : State := s.setSlot i (s.table[i].filter fun e => !e.ofNode n)

/-- The end of the RETIRE walk: COMMAND_DONE, OK in RES and BUSY clear, in one happening (R39, R151). -/
def State.endRetire (s : State) : Except Fault State := do
  let s ← s.postCommandDone
  pure { s with command := .idle, res := .ok }

/-- RETIRE_WALK_STEP (R39). With no RETIRE in its walk there is no such step (log entry 3). -/
def execRetireWalkStep (s : State) : Host.Outcome State Fault Refusal :=
  match s.command with
  | .retire n i =>
    match nextSlot i with
    | some j => .next { s.purgeSlot n i with command := .retire n j }
    | none => settle (s.purgeSlot n i).endRetire
  | .idle => .next s
  | .stop => .next s
  | .restart _ => .next s

end Sys2Proof.Machine
end

