-- ==== Sys2Proof/Machine/HostPort.lean ====
section
/-! DEFINITION. The host accesses that are not commands of the Command Unit: STAT_READ, FLOOR_WRITE, LVEN_WRITE,
REGISTER_WRITE and BAD_CMD; and the values that reads return (R153, R154, R166). -/

namespace Sys2Proof.Machine

/-- STAT_READ: the value shows the flags as they stand, and a CMDLOST that it shows set is cleared (R154). -/
def execStatRead (s : State) : Host.Outcome State Fault Refusal :=
  .next { s with readData := some s.statByte, cmdLost := false }

/-- FLOOR replaced by the low four bits of a write (R46). -/
def State.writeFloor (s : State) (value : Byte) : State := { s with floor := Fin.ofNat 16 (bits value 0 4) }

/-- Eight level enables replaced by a write (R45). -/
def State.writeLven (s : State) (reg : LvenReg) (value : Byte) : State :=
  match reg with
  | .lven0 => { s with lven0 := value }
  | .lven1 => { s with lven1 := value }

/-- FLOOR_WRITE (R46). -/
def execFloorWrite (value : Byte) (s : State) : Host.Outcome State Fault Refusal := .next (s.writeFloor value)

/-- LVEN_WRITE (R45). -/
def execLvenWrite (reg : LvenReg) (value : Byte) (s : State) : Host.Outcome State Fault Refusal :=
  .next (s.writeLven reg value)

/-- A command taken by its code (R155). -/
def CmdCode.run (c : CmdCode) (s : State) : Host.Outcome State Fault Refusal :=
  match c with
  | .start => execStart s
  | .stop => execStop s
  | .resume => execResume s
  | .restart => execRestart s
  | .complete => execComplete s
  | .completeTop => execCompleteTop s
  | .discard => execDiscard s
  | .getEntry => execGetEntry s
  | .setLine => execSetLine s
  | .getLine => execGetLine s
  | .setNode => execSetNode s
  | .getNode => execGetNode s
  | .retire => execRetire s
  | .setLink => execSetLink s

/-- BAD_CMD: a code that names no command gives BAD_CMD and changes nothing else, or is ignored with CMDLOST while BUSY
(R155, R156). A term whose code does name a command is not well-formed and is that command (log entry 18). -/
def execBadCmd (code : Byte) (s : State) : Host.Outcome State Fault Refusal :=
  match CmdCode.ofByte code with
  | none => s.taken (.next (s.withRes .badCmd))
  | some c => CmdCode.run c s

/-- One argument register written (R157). -/
def State.setArg (s : State) (i : Fin 4) (value : Byte) : State :=
  match i with
  | 0 => { s with arg0 := value }
  | 1 => { s with arg1 := value }
  | 2 => { s with arg2 := value }
  | 3 => { s with arg3 := value }

/-- REGISTER_WRITE: an ARG register is stored, or ignored with CMDLOST while BUSY; a write to a read-only address is
ignored (R153, R156). A term that names a register with a behaviour of its own is not well-formed and is that
register's write (log entry 18). -/
def execRegisterWrite (addr : BitVec 4) (value : Byte) (s : State) : Host.Outcome State Fault Refusal :=
  match Reg.ofAddr addr with
  | .arg i => s.taken (.next (s.setArg i value))
  | .cmdRes => execBadCmd value s
  | .floor => .next (s.writeFloor value)
  | .lven r => .next (s.writeLven r value)
  | .stat => .next s
  | .claim => .next s
  | .cwSrc => .next s
  | .cwLvl => .next s
  | .cwFlg => .next s
  | .cwPl0 => .next s
  | .cwPl1 => .next s
  | .top => .next s

/-- The value a claim read returns (R59). -/
def State.claimValue (s : State) : Byte :=
  match s.claimDecision with
  | .null _ => 0x00#8
  | .auto _ e => tagByte e.tag
  | .ordinary _ e => tagByte e.tag

/-- The value a host read at an address returns (R153, R166). A read other than STAT and CLAIM changes nothing, and so has
no row in the table (log entry 17). -/
def State.readRegister (s : State) (addr : BitVec 4) : Byte :=
  match Reg.ofAddr addr with
  | .stat => s.statByte
  | .cmdRes => s.res.byte
  | .arg 0 => s.arg0
  | .arg 1 => s.arg1
  | .arg 2 => s.arg2
  | .arg 3 => s.arg3
  | .claim => s.claimValue
  | .cwSrc => s.window.src
  | .cwLvl => s.window.lvl
  | .cwFlg => s.window.flg
  | .cwPl0 => s.window.pl0
  | .cwPl1 => s.window.pl1
  | .floor => packed (field 0 s.floor.val)
  | .top => s.topByte
  | .lven .lven0 => s.lven0
  | .lven .lven1 => s.lven1

/-- What the block drives on D7 to D0, from the levels of nCS, nRD, nWR and nRST (low is `false`): the value of the
register read, or none, high impedance (R165, R170). DESIGN CHOICE: with nCS, nRD and nWR all low the pins are high
impedance; R170 says that this access is no read, and not whether the pins are driven in it (log entry 24). -/
def State.dataPins (s : State) (nCS nRD nWR nRST : Bool) (addr : BitVec 4) : Option Byte :=
  match nCS, nRD, nWR, nRST with
  | false, false, true, true => some (s.readRegister addr)
  | _, _, _, _ => none

end Sys2Proof.Machine
end

