-- ==== Sys2Proof/Machine/Link.lean ====
section
/-! DEFINITION. The Link Engine's happenings from the transmission of a frame to the end of its slot (Chapter 6). A happening
whose Link Engine state is another one does not come about and changes nothing (log entry 3). `bitTimer` is the
number of bit times of the slot at the happening (log entry 8). -/

namespace Sys2Proof.Machine

/-- The bit times of a downstream frame (R97). -/
def frameBits : Nat := 25

/-- The bit times from a start bit to the end of DRAIN (R105). -/
def drainBits : Nat := 40

/-- A state of the Link Engine entered at a bit time of the slot. -/
def State.enterLink (s : State) (link : LinkState) (time : Nat) : State := { s with link, bitTimer := time }

/-- The report of a transmitted frame to the Node Table (R102): an ADMIT takes a JOINING node to ACTIVE (R134), an EJECT
takes a LEAVING node to ABSENT with its record reset (R139). -/
def State.reportTransmission (s : State) (f : TxFrame) : State :=
  let r := s.nodes[f.dest]
  match f.kind with
  | .admitFrame =>
    if r.state = .joining then
      (s.setNode f.dest { r with state := .active, faults := 0 }).raise (.nodeJoined f.dest)
    else s
  | .eject =>
    if r.state = .leaving then
      (s.setNode f.dest { r.clearSequence with state := .absent, admittedLimit := 0, declared := 0 }).raise
        (.nodeLeft f.dest)
    else s
  | .done => s
  | .poll => s
  | .probe => s

/-- FRAME_TRANSMITTED (R102). -/
def execFrameTransmitted (s : State) : Host.Outcome State Fault Refusal :=
  match s.link, s.txBuffer with
  | .send, some f =>
    .next ((s.reportTransmission f).enterLink (if f.window.isSome then .wait else .guard) frameBits)
  | _, _ => .next s

/-- A fault of the slot's node, counted in a POLL slot only (R107, R135). -/
def State.slotFault (s : State) (n : Node) (slot : SlotKind) : State :=
  match slot with
  | .poll => s.countFault n
  | .probe => s

/-- The outcome of a bad frame: LINK_FAULT for the node addressed, then the fault (R107). -/
def State.badFrame (s : State) (n : Node) (slot : SlotKind) : State := (s.raise (.linkFault n)).slotFault n slot

/-- REPLY_WAIT_EXPIRY: no reply (R103, R107). -/
def execReplyWaitExpiry (s : State) : Host.Outcome State Fault Refusal :=
  match s.link, s.txBuffer.bind fun f => f.window.map fun slot => (f.dest, slot) with
  | .wait, some (n, slot) => .next ((s.slotFault n slot).enterLink .guard (frameBits + s.slotWait))
  | _, _ => .next s

/-- START_BIT in window bit time `k`, from 1 to the reply wait of the slot (R103). -/
def execStartBit (k : Nat) (s : State) : Host.Outcome State Fault Refusal :=
  if s.link = .wait ∧ 1 ≤ k ∧ k ≤ s.slotWait then
    .next { s.enterLink .read (frameBits + k) with shiftReg := [] }
  else .next s

/-- A good reply: its record enters an empty holding buffer, or it is dropped with RX_OVERRUN (R107, R109). -/
def State.goodReply (s : State) (r : ReplyRecord) : State :=
  match s.holding with
  | none => { s with holding := some r }
  | some _ => s.raise (.rxOverrun r.node)

/-- The bytes of a reply assembled in the receive shift register (R104). -/
def State.assemble (s : State) (bytes : List Byte) : State := { s with shiftReg := bytes }

/-- The receive shift register at a bit time within the slot, `ldi` the samples of LDI since the start bit: in READ the bytes
complete by then (R104, section 6.11.1), else what it holds. That the 1 to 7 samples of a byte not yet complete show nothing
is DEDUCED. The bit times of READ have no row in the table, so the field itself is filled at the happening that ends them
(log entry 10). -/
def State.shiftContents (s : State) (ldi : List Bool) : List Byte :=
  match s.link with
  | .read => samples ldi (ldi.length / 8)
  | .idle => s.shiftReg
  | .send => s.shiftReg
  | .wait => s.shiftReg
  | .drain => s.shiftReg
  | .guard => s.shiftReg

/-- REPLY_RECEIVED: the reply assembled from the samples of LDI in the shift register, judged by its check byte, its outcome
handed on and the register's contents discarded (R104, R106, R107). -/
def execReplyReceived (ldi : List Bool) (s : State) : Host.Outcome State Fault Refusal :=
  match s.link, s.txBuffer.bind fun f => f.window.map fun slot => (f.dest, slot), readReply ldi with
  | .read, some (n, slot), .complete bytes reply =>
    let s := s.assemble bytes
    let s' := if checkPasses n s.shiftReg then s.goodReply { node := n, slot, reply } else s.badFrame n slot
    .next { s'.enterLink .guard (s.bitTimer + 8 * bytes.length) with shiftReg := [] }
  | _, _, _ => .next s

/-- FRAMING_ERROR: at the end of the byte with the invalid field the Link Engine enters DRAIN; the bytes stay in the shift
register until the window ends (R105). -/
def execFramingError (ldi : List Bool) (s : State) : Host.Outcome State Fault Refusal :=
  match s.link, readReply ldi with
  | .read, .framing bytes =>
    .next ((s.assemble bytes).enterLink .drain (s.bitTimer + 8 * bytes.length))
  | _, _ => .next s

/-- DRAIN_END: 40 bit times after the start bit (R105, R107). -/
def execDrainEnd (s : State) : Host.Outcome State Fault Refusal :=
  match s.link, s.txBuffer.bind fun f => f.window.map fun slot => (f.dest, slot) with
  | .drain, some (n, slot) =>
    .next { (s.badFrame n slot).enterLink .guard (s.bitTimer - 8 * s.shiftReg.length + drainBits) with shiftReg := [] }
  | _, _ => .next s

/-- GUARD_END: the Link Engine returns to IDLE and the transmit buffer is empty (R100, R101); in STOPPING this ends STOP
(R160). -/
def execGuardEnd (s : State) : Host.Outcome State Fault Refusal :=
  if s.link = .guard then
    let s := { s.enterLink .idle 0 with txBuffer := none }
    if s.mode = .stopping then settle s.endStop else .next s
  else .next s

end Sys2Proof.Machine
end

