-- ==== Sys2Proof/Machine/LocalEvents.lean ====
section
/-! DEFINITION. LOCAL_POSTING: a condition handed to the Local Event Unit is raised and posted (Chapter 9). -/

namespace Sys2Proof.Machine

/-- LOCAL_POSTING of condition `c`: one waiting occurrence of it is taken, the enable of its line is read, and it is posted
or dropped, in one happening (R30, R144, R146). A condition that no block has raised is not posted (log entry 3). -/
def execLocalPosting (c : LocalCondition) (s : State) : Host.Outcome State Fault Refusal :=
  if c ∈ s.raised then settle (State.postCondition { s with raised := s.raised.erase c } c) else .next s

end Sys2Proof.Machine
end

