-- ==== Sys2Proof/Machine/Scheduler.lean ====
section
/-! DEFINITION. SCHEDULER_CHOICE: what the next slot carries (R113 to R120, R126). -/

namespace Sys2Proof.Machine

/-- The load of a frame: the transmit buffer is filled, the slot begins, DIV and the reply wait are read (R96, R101). -/
def State.loadFrame (s : State) (dest : Node) (kind : FrameKind) (arg : Byte) : State :=
  { s with
    txBuffer := some (TxFrame.build dest kind arg)
    link := .send
    slotDiv := s.div
    slotWait := s.replyWait
    bitTimer := 0
    shiftReg := [] }

/-- The load of a POLL, its argument byte built from the record and the flow-control state at the load (R126). -/
def State.loadPoll (s : State) (n : Node) : State :=
  let r := s.nodes[n]
  s.loadFrame n .poll (pollArg r.lastAck r.ackValid r.newEntry (s.hold n))

/-- The check of a head frame against its destination's state: whether it is loaded; it is dropped otherwise (R120). -/
def OutFrame.sendable (f : OutFrame) (state : NodeState) : Bool :=
  match f.body with
  | .done _ _ => decide (state = .active)
  | .admitFrame _ => decide (state = .joining)
  | .eject => true

/-- The first frame that passes the head check, and the frames behind it; the frames before it are dropped (R120). -/
def takeHead (nodes : Vector NodeRecord 15) : List OutFrame → Option (OutFrame × List OutFrame)
  | [] => none
  | f :: rest => if f.sendable nodes[f.dest].state then some (f, rest) else takeHead nodes rest

/-- What a step of a choice gives: a state with a frame loaded, or the state with which the choice goes on (R115). -/
inductive ChoiceStep
  | loaded (s : State)
  | goOn (s : State)
  deriving DecidableEq, Repr

/-- Step 1, outbound: not while two frames have gone out since the last POLL or PROBE (R115, R116). -/
def State.stepOutbound (s : State) : ChoiceStep :=
  if 2 ≤ s.outCount then .goOn s
  else
    match takeHead s.nodes s.queue with
    | some (f, rest) =>
      .loaded ({ s with queue := rest, outCount := s.outCount + 1 }.loadFrame f.dest f.body.kind f.body.arg)
    | none => .goOn { s with queue := [] }

/-- Step 2, burst: an armed flag gives its node one POLL if the node is ACTIVE, and is cleared if not (R115). DEDUCED: R136 has
the flag of a lost node cleared at the next choice and refers to R115; it is cleared at the next choice that reaches this step,
and a choice that loads an outbound frame at step 1 leaves it armed (log entry 26). -/
def State.stepBurst (s : State) : ChoiceStep :=
  match s.burst with
  | .armed n =>
    if s.isActive n then .loaded ({ s with burst := .spent, outCount := 0 }.loadPoll n) else .goOn { s with burst := .clear }
  | .clear => .goOn s
  | .spent => .goOn s

/-- The lowest ACTIVE node above the ring position, any ACTIVE node counting when the position is 15 (R118). -/
def State.nextInRing (s : State) : Option Node :=
  nodeList.find? fun n => s.isActive n && (decide (s.ring = 15) || decide (s.ring.val < n.val))

/-- A spent burst flag becomes clear at a ring POLL or a PROBE (R115, R117). -/
def BurstFlag.afterPoll : BurstFlag → BurstFlag
  | .clear => .clear
  | .armed n => .armed n
  | .spent => .clear

/-- Step 3: the ring POLL of node `n` (R115). -/
def State.ringPoll (s : State) (n : Node) : State :=
  { s with ring := n.castSucc, outCount := 0, burst := s.burst.afterPoll }.loadPoll n

/-- Whether a node qualifies for discovery (R119). -/
def NodeRecord.discoverable (r : NodeRecord) : Bool :=
  r.join && (decide (r.state = .absent) || decide (r.state = .lost))

/-- The nodes in ascending cyclic order from the one after `p`, ending with `p` (R119). -/
def nodesAfter (p : Node) : List Node := (List.range 15).map fun i => Fin.ofNat 15 (p.val + 1 + i)

/-- The node that a discovery slot probes (R119). -/
def State.nextDiscovered (s : State) : Option Node :=
  (nodesAfter s.discovery).find? fun n => s.nodes[n].discoverable

/-- Step 4: the PROBE of node `n` (R115). -/
def State.probe (s : State) (n : Node) : State :=
  { s with discovery := n, outCount := 0, burst := s.burst.afterPoll }.loadFrame n .probe 0x00#8

/-- Steps 3 to 5 (R115, R118): with no ACTIVE node above the ring position the pass ends, the position becomes 15 and a
discovery slot is tried; when no node qualifies, the lowest ACTIVE node is polled, if there is one. -/
def State.pollOrProbe (s : State) : State :=
  match s.nextInRing with
  | some n => s.ringPoll n
  | none =>
    let s := { s with ring := 15 }
    match s.nextDiscovered with
    | some n => s.probe n
    | none =>
      match s.nextInRing with
      | some n => s.ringPoll n
      | none => s

/-- The choice (R115). -/
def State.choose (s : State) : State :=
  match s.stepOutbound with
  | .loaded s => s
  | .goOn s =>
    match s.stepBurst with
    | .loaded s => s
    | .goOn s => s.pollOrProbe

/-- SCHEDULER_CHOICE: a choice is made only in RUN with the Link Engine IDLE (R114, R110). -/
def execSchedulerChoice (s : State) : Host.Outcome State Fault Refusal :=
  if s.mode = .run ∧ s.link = .idle then .next s.choose else .next s

end Sys2Proof.Machine
end

