-- ==== Sys2Proof/Machine/Dispatch.lean ====
section
/-! DEFINITION. One arm per command: the command's effect on everything but the queue. -/

namespace Sys2Proof.Machine

open Sys2Proof

def exec (i : Instr) (s : State) : Host.Outcome State Fault Refusal :=
  match i with
  | .statRead => Sys2Proof.Machine.execStatRead s
  | .claim => Sys2Proof.Machine.execClaim s
  | .floorWrite value => Sys2Proof.Machine.execFloorWrite value s
  | .lvenWrite reg value => Sys2Proof.Machine.execLvenWrite reg value s
  | .registerWrite addr value => Sys2Proof.Machine.execRegisterWrite addr value s
  | .badCmd code => Sys2Proof.Machine.execBadCmd code s
  | .start => Sys2Proof.Machine.execStart s
  | .stop => Sys2Proof.Machine.execStop s
  | .resume => Sys2Proof.Machine.execResume s
  | .restart => Sys2Proof.Machine.execRestart s
  | .restartClearStep => Sys2Proof.Machine.execRestartClearStep s
  | .complete => Sys2Proof.Machine.execComplete s
  | .completeTop => Sys2Proof.Machine.execCompleteTop s
  | .discard => Sys2Proof.Machine.execDiscard s
  | .getEntry => Sys2Proof.Machine.execGetEntry s
  | .setLine => Sys2Proof.Machine.execSetLine s
  | .getLine => Sys2Proof.Machine.execGetLine s
  | .setNode => Sys2Proof.Machine.execSetNode s
  | .getNode => Sys2Proof.Machine.execGetNode s
  | .setLink => Sys2Proof.Machine.execSetLink s
  | .retire => Sys2Proof.Machine.execRetire s
  | .retireWalkStep => Sys2Proof.Machine.execRetireWalkStep s
  | .pinReset periods => Sys2Proof.Machine.execPinReset periods s
  | .schedulerChoice => Sys2Proof.Machine.execSchedulerChoice s
  | .frameTransmitted => Sys2Proof.Machine.execFrameTransmitted s
  | .replyWaitExpiry => Sys2Proof.Machine.execReplyWaitExpiry s
  | .replyReceived ldi => Sys2Proof.Machine.execReplyReceived ldi s
  | .drainEnd => Sys2Proof.Machine.execDrainEnd s
  | .guardEnd => Sys2Proof.Machine.execGuardEnd s
  | .admissionTake => Sys2Proof.Machine.execAdmissionTake s
  | .localPosting c => Sys2Proof.Machine.execLocalPosting c s
  | .startBit k => Sys2Proof.Machine.execStartBit k s
  | .framingError ldi => Sys2Proof.Machine.execFramingError ldi s

end Sys2Proof.Machine
end

