-- ==== Sys2Proof/Safety.lean ====
section
/-! DEFINITION. The laws of the spec that every run keeps, as predicates on a state that can be decided. `Safe` is all of
them together; a run is safe when no step faults or refuses and every state of it is `Safe`. -/

namespace Sys2Proof.Machine

/-- R70: at most 8 stack entries, their captured levels strictly increasing from bottom to top. -/
abbrev State.StackOrdered (s : State) : Prop :=
  s.stack.length ≤ Config.stackMax ∧ s.stack.Pairwise fun a b => a.level < b.level

/-- R120: at most 16 frames in the Outbound Queue. -/
abbrev State.QueueBounded (s : State) : Prop := s.queue.length ≤ Config.queueMax

/-- R25: the remote pool never exceeds 24. -/
abbrev State.PoolBounded (s : State) : Prop := s.poolCount ≤ Config.poolMax

/-- R22: the Pending Table never holds two entries of one line. -/
abbrev State.LinesUnique (s : State) : Prop :=
  s.pendingEntries.Pairwise fun a b => ¬ (a.source = b.source ∧ a.line = b.line)

/-- The tags of the live entries. -/
def State.liveTags (s : State) : List Tag := s.pendingEntries.map (·.tag) ++ s.stack.map (·.entry.tag)

/-- R23: every tag from 1 to 63 is held by at most one entry, tag 0 is never held, and the last allocated tag is 1 to 63. -/
abbrev State.TagsUnique (s : State) : Prop := s.liveTags.Nodup ∧ 0 ∉ s.liveTags ∧ s.lastTag ≠ 0

/-- R6: no Line Map entry is HELD with auto on, nor HELD on source 15. -/
abbrev State.LineMapLegal (s : State) : Prop :=
  ∀ src : Source, ∀ line : Line,
    (s.lineConfig src line).kind = .held → (s.lineConfig src line).auto = false ∧ src ≠ localSource

/-- R15: the kind of every live entry is the kind of its line in the Line Map. -/
abbrev State.KindsAgree (s : State) : Prop :=
  (∀ e ∈ s.pendingEntries, e.kind = (s.lineConfig e.source e.line).kind) ∧
    ∀ e ∈ s.stack, e.entry.kind = (s.lineConfig e.entry.source e.entry.line).kind

/-- The fields of an entry within the values of R21, a HELD entry with count 1 (R5), a local entry neither stale nor a
repost (R147), an entry marked as a repost HELD (R31). -/
abbrev Entry.Legal (e : Entry) : Prop :=
  1 ≤ e.count ∧ e.count ≤ Config.countMax ∧ e.payload.length ≤ 2 ∧ (e.kind = .held → e.count = 1) ∧
    (e.source = localSource → e.stale = false ∧ e.repost = false) ∧ (e.repost = true → e.kind = .held)

/-- R21, R69, R73: every live entry is legal, and only a HELD stack entry is marked released. -/
abbrev State.EntriesLegal (s : State) : Prop :=
  (∀ e ∈ s.pendingEntries, e.Legal) ∧ ∀ e ∈ s.stack, e.entry.Legal ∧ (e.released = true → e.entry.kind = .held)

/-- Whether a stack entry is HELD, non-stale and unreleased: its condition still holds (R5). -/
abbrev StackEntry.Holding (e : StackEntry) : Prop :=
  e.entry.kind = .held ∧ e.entry.stale = false ∧ e.released = false

/-- R5, R31: the line of a HELD, non-stale, unreleased stack entry has no pending entry and no other such stack entry. -/
abbrev State.HeldBlocks (s : State) : Prop :=
  (∀ e ∈ s.stack, e.Holding → s.linePending e.entry.source e.entry.line = false) ∧
    s.stack.Pairwise fun a b =>
      a.Holding → b.Holding → ¬ (a.entry.source = b.entry.source ∧ a.entry.line = b.entry.line)

/-- The node and the next slot of a RETIRE in its walk (R39). -/
def State.retiring (s : State) : Option (Node × Fin 32) :=
  match s.command with
  | .retire n next => some (n, next)
  | .idle => none
  | .stop => none
  | .restart _ => none

/-- The next slot of a RESTART in its walk (R41). -/
def State.clearing (s : State) : Option (Fin 32) :=
  match s.command with
  | .restart next => some next
  | .idle => none
  | .stop => none
  | .retire _ _ => none

/-- R124: a stale HELD entry is pending only in a slot that the RETIRE walk of its node has still to visit. -/
abbrev State.StaleHeldRetiring (s : State) : Prop :=
  ∀ i : Fin 32, ∀ e ∈ s.table[i], e.kind = .held → e.stale = true →
    ∃ w ∈ s.retiring, e.ofNode w.1 = true ∧ w.2 ≤ i

/-- R130: a node's admitted limit is 1 to 7 in JOINING and ACTIVE and 0 in the other states; its configured limit is 1 to 7
and its fault count at most 7. R133, R139, R143: a JOINING or ACTIVE node has declared lines, and an ABSENT one has its
dynamic fields at 0. R123, R126: the expected sequence follows the last acknowledged one, and both are 0, with the
new-entry indication no, while ack valid is no. -/
abbrev NodeRecord.Legal (r : NodeRecord) : Prop :=
  (r.state = .joining ∨ r.state = .active ↔ r.admittedLimit ≠ 0) ∧ r.configLimit ≠ 0 ∧ r.faults ≤ 7 ∧
    (r.state = .joining ∨ r.state = .active → r.declared ≠ 0) ∧
    (r.state = .absent → r.ackValid = false ∧ r.faults = 0 ∧ r.declared = 0) ∧
    (r.ackValid = true → r.expected = r.lastAck + 1) ∧
    (r.ackValid = false → r.expected = 0 ∧ r.lastAck = 0 ∧ r.newEntry = false)

/-- R130, R131, R113: the node records and link parameters within their ranges, an ACTIVE node's faults below 7, the
outbound count at most 2. -/
abbrev State.RecordsLegal (s : State) : Prop :=
  (∀ n : Node, s.nodes[n].Legal ∧ (s.nodes[n].state = .active → s.nodes[n].faults < 7)) ∧
    s.div ≤ 255 ∧ 4 ≤ s.replyWait ∧ s.replyWait ≤ 31 ∧ 1 ≤ s.faultLimit ∧ s.faultLimit ≤ 7 ∧ s.outCount ≤ 2

/-- R128: a node's held credits never exceed its admitted limit, and are zero whenever it is not ACTIVE. Between the steps
of the RESTART clear the entries not yet cleared stand with every node ABSENT already (log entry 22). -/
abbrev State.CreditsBounded (s : State) : Prop :=
  s.clearing = none →
    ∀ n : Node, s.heldCredits n ≤ s.nodes[n].admittedLimit.val ∧ (s.nodes[n].state ≠ .active → s.heldCredits n = 0)

/-- R100, R101: the transmit buffer is empty in IDLE and full from SEND to DRAIN, with a frame that opens a window in WAIT,
READ and DRAIN; the shift register holds bytes in DRAIN only. -/
abbrev State.LinkConsistent (s : State) : Prop :=
  (s.link = .idle → s.txBuffer = none) ∧ (s.link = .send → s.txBuffer.isSome = true) ∧
    (s.link = .wait ∨ s.link = .read ∨ s.link = .drain → (s.txBuffer.bind TxFrame.window).isSome = true) ∧
    (s.link ≠ .drain → s.shiftReg = []) ∧ s.shiftReg.length ≤ 2

/-- The bit timer in each state of the Link Engine (R97, R103, R105); GUARD apart. -/
abbrev State.TimerConsistent (s : State) : Prop :=
  (s.link = .idle ∨ s.link = .send → s.bitTimer = 0) ∧ (s.link = .wait → s.bitTimer = 25) ∧
    (s.link = .read → 26 ≤ s.bitTimer ∧ s.bitTimer ≤ 25 + s.slotWait) ∧
    (s.link = .drain →
      26 + 8 * s.shiftReg.length ≤ s.bitTimer ∧ s.bitTimer ≤ 25 + s.slotWait + 8 * s.shiftReg.length)

/-- R155, R160, R162, R163: STOPPING stands exactly while STOP holds BUSY, with a slot in flight; the RESTART walk runs in
CONFIG and the RETIRE walk in RUN or PAUSED. -/
abbrev State.ModeConsistent (s : State) : Prop :=
  (s.command = .stop ↔ s.mode = .stopping) ∧ (s.mode = .stopping → s.link ≠ .idle) ∧
    (s.retiring ≠ none → s.mode = .run ∨ s.mode = .paused) ∧ (s.clearing ≠ none → s.mode = .config)

/-- R61, R108, R111: in CONFIG the stack, the queue and the holding buffer are empty, no condition waits, every node is
ABSENT, and no pending entry stands but in the slots that the RESTART walk has still to visit. -/
abbrev State.ConfigEmpty (s : State) : Prop :=
  s.mode = .config → s.stack = [] ∧ s.queue = [] ∧ s.holding = none ∧ s.raised = [] ∧
    (∀ n : Node, s.nodes[n].state = .absent) ∧ (s.link = .idle ∨ s.link = .guard) ∧ s.txBuffer = none ∧
    ∀ i : Fin 32, s.table[i] ≠ none → ∃ next ∈ s.clearing, next ≤ i

/-- In PAUSED no slot is in flight (R158). -/
abbrev State.PausedIdle (s : State) : Prop := s.mode = .paused → s.link = .idle

/-- R134: a JOINING node has its ADMIT in the Outbound Queue, or in the transmit buffer and not yet transmitted. -/
abbrev State.AdmitUnderway (s : State) : Prop :=
  ∀ n : Node, s.nodes[n].state = .joining →
    (∃ f ∈ s.queue, f.dest = n ∧ f.body.kind = .admitFrame) ∨
      (s.link = .send ∧ ∃ f ∈ s.txBuffer, f.dest = n ∧ f.kind = .admitFrame)

/-- R139: a LEAVING node has its EJECT in the Outbound Queue, or in the transmit buffer and not yet transmitted. -/
abbrev State.EjectUnderway (s : State) : Prop :=
  ∀ n : Node, s.nodes[n].state = .leaving →
    (∃ f ∈ s.queue, f.dest = n ∧ f.body.kind = .eject) ∨
      (s.link = .send ∧ ∃ f ∈ s.txBuffer, f.dest = n ∧ f.kind = .eject)

/-- R108: the content of a record is within its ranges: a HELLO declares 1 to 8 lines, an EVENT carries at most two payload
bytes. -/
def Reply.legal : Reply → Bool
  | .idle => true
  | .hello declared => decide (declared ≠ 0)
  | .event _ _ _ _ payload => decide (payload.length ≤ 2)

/-- R108: the record in the holding buffer is within its ranges. -/
abbrev State.HoldingLegal (s : State) : Prop := ∀ r ∈ s.holding, r.reply.legal = true

/-- All the laws together. -/
structure State.Safe (s : State) : Prop where
  stackOrdered : s.StackOrdered
  queueBounded : s.QueueBounded
  poolBounded : s.PoolBounded
  linesUnique : s.LinesUnique
  tagsUnique : s.TagsUnique
  lineMapLegal : s.LineMapLegal
  kindsAgree : s.KindsAgree
  entriesLegal : s.EntriesLegal
  heldBlocks : s.HeldBlocks
  staleHeldRetiring : s.StaleHeldRetiring
  recordsLegal : s.RecordsLegal
  creditsBounded : s.CreditsBounded
  linkConsistent : s.LinkConsistent
  timerConsistent : s.TimerConsistent
  modeConsistent : s.ModeConsistent
  configEmpty : s.ConfigEmpty
  pausedIdle : s.PausedIdle
  admitUnderway : s.AdmitUnderway
  ejectUnderway : s.EjectUnderway
  holdingLegal : s.HoldingLegal

/-! ## The orders of the spec, as distances: the terms in which statements say what is first -/

/-- How far a source lies from the one after pointer `p` in ascending cyclic order (R49): 0 for the source after `p`, 15 for
`p` itself. -/
def sourceDistance (p src : Source) : Nat := (src.val + 15 - p.val) % 16

/-- How far a node lies from the one after pointer `p` in ascending cyclic order (R119). -/
def nodeDistance (p n : Node) : Nat := (n.val + 14 - p.val) % 15

/-- How far a tag lies from the one after the last allocated tag, upward and wrapping from 63 to 1 (R23). -/
def tagDistance (last t : Tag) : Nat := (t.val + 62 - last.val) % 63

/-- R21, R23: slot `i` is the lowest-numbered empty slot, and tag `t` the first tag after the last allocated one that is not
live: the place of the next insertion. -/
abbrev State.NextPlace (s : State) (i : Fin 32) (t : Tag) : Prop :=
  s.table[i] = none ∧ (∀ j : Fin 32, j < i → s.table[j] ≠ none) ∧ t ≠ 0 ∧ t ∉ s.liveTags ∧
    ∀ u : Tag, u ≠ 0 → u ∉ s.liveTags → tagDistance s.lastTag t ≤ tagDistance s.lastTag u

end Sys2Proof.Machine
end

