-- ==== Sys2Proof/Certificates/Slice0/Obligations.lean ====
section
/-! DEFINITION. The statements for the provers. A statement that gives the next state of a command as a record update of the
state before it says its frame with it: every field that is not written stands as it was. -/

open Sys2Proof Sys2Proof.Machine

/-! ## The machine and its queue -/

/-- The step takes the command at the front of the queue. That an empty queue leaves the state as it is is the model's choice
(log entry 2). -/
def Obligations.StepTakesTheFrontCommand : Prop :=
  ∀ (c : Instr) (rest : List Instr) (s : State),
    (s.pending = c :: rest → step s = exec c { s with pending := rest }) ∧ (s.pending = [] → step s = .next s)

/-- No command reads or writes the queue of waiting commands (the model's own field). -/
def Obligations.CommandsLeaveTheQueueAlone : Prop :=
  ∀ (c : Instr) (s : State) (q : List Instr),
    exec c { s with pending := q } =
      match exec c s with
      | .next t => .next { t with pending := q }
      | .fault f => .fault f
      | .refused r => .refused r

/-- A happening that its state does not allow changes nothing (the model's choice, log entry 3): a walk step without its
walk, a choice outside RUN or with a slot in flight, a link happening in another state of the Link Engine, a take with an
empty buffer or a held Admission, a posting of a condition that is not waiting. -/
def Obligations.HappeningsOutOfPlaceChangeNothing : Prop :=
  ∀ s : State,
    (s.clearing = none → exec .restartClearStep s = .next s) ∧
    (s.retiring = none → exec .retireWalkStep s = .next s) ∧
    (s.mode ≠ .run ∨ s.link ≠ .idle → exec .schedulerChoice s = .next s) ∧
    (s.link ≠ .send → exec .frameTransmitted s = .next s) ∧
    (s.link ≠ .wait → exec .replyWaitExpiry s = .next s ∧ ∀ k, exec (.startBit k) s = .next s) ∧
    (∀ k, k = 0 ∨ s.slotWait < k → exec (.startBit k) s = .next s) ∧
    (s.link ≠ .read → ∀ ldi, exec (.replyReceived ldi) s = .next s ∧ exec (.framingError ldi) s = .next s) ∧
    (s.link ≠ .drain → exec .drainEnd s = .next s) ∧
    (s.link ≠ .guard → exec .guardEnd s = .next s) ∧
    (s.holding = none ∨ s.retiring ≠ none → exec .admissionTake s = .next s) ∧
    (∀ c, c ∉ s.raised → exec (.localPosting c) s = .next s)

/-! ## Laws that every step keeps -/

/-- The block right after a pin reset keeps every law. -/
def Obligations.SafetyHoldsAtReset : Prop := State.reset.Safe

/-- From every state that keeps the laws, a step ends in a next state, and that state keeps them again: no run from reset
meets a fault. Three clauses of the laws are the model's: in CONFIG no condition waits (log entry 15), the credit law is
stated outside the RESTART clear (log entry 22), and the bit timer has the model's numbers (log entry 8), with the shift
register filled between happenings in DRAIN only (log entry 10). -/
def Obligations.EveryStepRunsAndKeepsSafety : Prop :=
  ∀ s : State, s.Safe → ∃ t, step s = .next t ∧ t.Safe

/-- R70, R120, R25: every step keeps the law of the Service Stack, the bound of the Outbound Queue and that of the remote pool (the
last where tags are unique, so that a removal by tag removes the entry meant). -/
def Obligations.StepKeepsStackQueueAndPoolBounds : Prop :=
  ∀ s t : State, step s = .next t →
    (s.StackOrdered → t.StackOrdered) ∧ (s.QueueBounded → t.QueueBounded) ∧
      (s.TagsUnique → s.PoolBounded → t.PoolBounded)

/-- R23: every step keeps the tags of the live entries distinct and never gives tag 0. -/
def Obligations.StepKeepsTagsUnique : Prop :=
  ∀ s t : State, s.TagsUnique → step s = .next t → t.TagsUnique

/-- R158: the mode changes by START, STOP, RESUME, RESTART, a pin reset and the end of STOPPING, and by nothing else. -/
def Obligations.ModeChangesOnlyAsListed : Prop :=
  ∀ (c : Instr) (s t : State), wellFormed c = true → exec c s = .next t → t.mode ≠ s.mode →
    (c = .start ∧ s.mode = .config ∧ t.mode = .run) ∨
    (c = .stop ∧ s.mode = .run ∧ s.link ≠ .idle ∧ t.mode = .stopping) ∨
    (c = .stop ∧ s.mode = .run ∧ s.link = .idle ∧ t.mode = .paused) ∨
    (c = .guardEnd ∧ s.mode = .stopping ∧ s.link = .guard ∧ t.mode = .paused) ∨
    (c = .resume ∧ s.mode = .paused ∧ t.mode = .run) ∨
    (c = .restart ∧ t.mode = .config) ∨
    (∃ periods, c = .pinReset periods ∧ t.mode = .config)

/-- R7, R45, R46, R131, R130: what configures the block changes by the command that writes it, and by a pin reset: the Line Map
by SET_LINE, the level enables and FLOOR by their writes, the link parameters by SET_LINK, a configured limit by SET_NODE, a
join setting by SET_NODE and RETIRE. -/
def Obligations.ConfigurationChangesOnlyByItsCommand : Prop :=
  ∀ (c : Instr) (s t : State), wellFormed c = true → exec c s = .next t → (∀ periods, c ≠ .pinReset periods) →
    (c ≠ .setLine → t.lineMap = s.lineMap) ∧
    ((∀ r v, c ≠ .lvenWrite r v) → t.lven0 = s.lven0 ∧ t.lven1 = s.lven1) ∧
    ((∀ v, c ≠ .floorWrite v) → t.floor = s.floor) ∧
    (c ≠ .setLink → t.div = s.div ∧ t.replyWait = s.replyWait ∧ t.faultLimit = s.faultLimit) ∧
    (c ≠ .setNode → ∀ n : Node,
      t.nodes[n].configLimit = s.nodes[n].configLimit ∧ (c ≠ .retire → t.nodes[n].join = s.nodes[n].join))

/-- R51: a rotation pointer changes by a claim, by RESTART and by a pin reset only; a claim that returns 0 moves none, and one
that returns a tag sets the pointer of the level that the Claim Window then shows to the source that it shows. -/
def Obligations.RotationMovesOnlyAtClaims : Prop :=
  ∀ (c : Instr) (s t : State), exec c s = .next t →
    (wellFormed c = true → t.rotation ≠ s.rotation → c = .restart ∨ (∃ periods, c = .pinReset periods) ∨ c = .claim) ∧
    (c = .claim →
      (t.readData = some 0x00#8 ∧ t.rotation = s.rotation ∧ ∃ reason, t.window = .null reason) ∨
      ∃ (i : Fin 32) (e : Entry) (r : ClaimRecord), s.winner = some (i, e) ∧ t.readData = some (BitVec.ofNat 8 e.tag.val) ∧
        t.window = .claimed r ∧ r.source = e.source ∧ r.level = s.lineMap[e.source][e.line].level ∧
        t.rotation = s.rotation.set r.level r.source)

/-! ## The host port -/

/-- R154, R166: STAT shows the flags as they stand, each at its bit, and the read clears CMDLOST and changes nothing else. -/
def Obligations.StatReadShowsTheFlags : Prop :=
  ∀ s : State, s.StackOrdered → s.QueueBounded → s.PoolBounded →
    ∃ b : Byte, exec .statRead s = .next { s with readData := some b, cmdLost := false } ∧
      b = s.readRegister 0x0#4 ∧
      (∀ (m : Mode) (k : Nat), (m, k) ∈ [(Mode.config, 0), (.run, 1), (.stopping, 2), (.paused, 3)] → s.mode = m →
        b.toNat % 4 = k) ∧ (b.getLsbD 2 = true ↔ s.command ≠ .idle) ∧
      b.getLsbD 3 = s.cmdLost ∧ b.getLsbD 4 = s.irq ∧ (b.getLsbD 5 = true ↔ s.stack.length = 8) ∧
      (b.getLsbD 6 = true ↔ s.poolCount = 24) ∧ (b.getLsbD 7 = true ↔ s.queue.length = 16)

/-- R153, R156, R157: an argument write is stored while the Command Unit is idle; while BUSY it is ignored and sets CMDLOST, and so
does a command written, which is not taken and leaves RES; a write to a read-only address changes nothing. Reads return RES by
its result code, and the arguments as they stand. -/
def Obligations.RegisterWritesAndLostCommands : Prop :=
  ∀ (s : State) (v : Byte),
    (s.command = .idle →
      exec (.registerWrite 0x2#4 v) s = .next { s with arg0 := v } ∧
      exec (.registerWrite 0x3#4 v) s = .next { s with arg1 := v } ∧
      exec (.registerWrite 0x4#4 v) s = .next { s with arg2 := v } ∧
      exec (.registerWrite 0x5#4 v) s = .next { s with arg3 := v }) ∧
    (s.command ≠ .idle → ∀ a : BitVec 4, 2 ≤ a.toNat → a.toNat ≤ 5 →
      exec (.registerWrite a v) s = .next { s with cmdLost := true }) ∧
    (s.command ≠ .idle → ∀ c : Instr,
      c ∈ [.start, .stop, .resume, .restart, .complete, .completeTop, .discard, .getEntry, .setLine, .getLine, .setNode,
        .getNode, .retire, .setLink] → exec c s = .next { s with cmdLost := true }) ∧
    (∀ a : BitVec 4, a.toNat ∈ [0x0, 0x6, 0x7, 0x8, 0x9, 0xA, 0xB, 0xD] → exec (.registerWrite a v) s = .next s) ∧
    (∀ (res : ResultCode) (code : Byte),
      (res, code) ∈ [(ResultCode.ok, 0x00#8), (.badCmd, 0x01#8), (.badMode, 0x02#8), (.badArg, 0x03#8), (.noTag, 0x04#8),
        (.inService, 0x05#8), (.queueFull, 0x06#8), (.inUse, 0x07#8), (.noNode, 0x08#8)] →
      s.res = res → s.readRegister 0x1#4 = code) ∧
    s.readRegister 0x2#4 = s.arg0 ∧ s.readRegister 0x3#4 = s.arg1 ∧ s.readRegister 0x4#4 = s.arg2 ∧
    s.readRegister 0x5#4 = s.arg3

/-- R153, R155, R166: the command codes; every other code writes BAD_CMD to RES and changes nothing else, and is ignored with CMDLOST
while BUSY; and only STAT and CLAIM are reads with an effect. -/
def Obligations.CodesNameTheCommands : Prop :=
  [0x01#8, 0x02#8, 0x03#8, 0x04#8, 0x10#8, 0x11#8, 0x12#8, 0x13#8, 0x20#8, 0x21#8, 0x30#8, 0x31#8, 0x32#8, 0x38#8].map
      (hostWrite 0x1#4) =
    [.start, .stop, .resume, .restart, .complete, .completeTop, .discard, .getEntry, .setLine, .getLine, .setNode, .getNode,
      .retire, .setLink] ∧
  (∀ v, hostWrite 0xC#4 v = .floorWrite v ∧ hostWrite 0xE#4 v = .lvenWrite .lven0 v ∧
    hostWrite 0xF#4 v = .lvenWrite .lven1 v) ∧
  (∀ a : BitVec 4, hostRead a = if a = 0x0#4 then some .statRead else if a = 0x6#4 then some .claim else none) ∧
  ∀ (s : State) (code : Byte),
    code.toNat ∉ [0x01, 0x02, 0x03, 0x04, 0x10, 0x11, 0x12, 0x13, 0x20, 0x21, 0x30, 0x31, 0x32, 0x38] →
    hostWrite 0x1#4 code = .badCmd code ∧
    (s.command = .idle → exec (.badCmd code) s = .next { s with res := .badCmd }) ∧
    (s.command ≠ .idle → exec (.badCmd code) s = .next { s with cmdLost := true })

/-- R153: whatever address and value the host writes, the write is a well-formed command of the table, and it is the write of
that register (that REGISTER_WRITE acts so at an address with a row of its own is the model's, log entry 18). R170, R165: the
bus: a read and a write each need nCS low and its strobe low; with both strobes low, with neither, with nCS high, or while nRST
is low, an access is no command; D7 to D0 carry the register read, and are high impedance with nCS or nRD high and while nRST is
low; and what a STAT or claim read returns is what the pins carry (`readData` is the model's own field, log entry 7). -/
def Obligations.HostWritesAreCommandsOfTheTable : Prop :=
  ∀ (a : BitVec 4) (v : Byte),
    wellFormed (hostWrite a v) = true ∧ (∀ s, exec (hostWrite a v) s = exec (.registerWrite a v) s) ∧
    busAccess false true false true a v = some (hostWrite a v) ∧ busAccess false false true true a v = hostRead a ∧
    (∀ nCS nRD nWR nRST : Bool, nCS = true ∨ nRST = false ∨ nRD = nWR → busAccess nCS nRD nWR nRST a v = none) ∧
    ∀ s : State,
      s.dataPins false false true true a = some (s.readRegister a) ∧
      (∀ nCS nRD nWR nRST : Bool, nCS = true ∨ nRD = true ∨ nRST = false → s.dataPins nCS nRD nWR nRST a = none) ∧
      ∀ (c : Instr) (t : State), busAccess false false true true a v = some c → exec c s = .next t →
        t.readData = s.dataPins false false true true a

/-- R45, R46: a write replaces FLOOR (by its low four bits) or the eight level enables of its register, in every mode and while BUSY,
and changes nothing else; reads return them; a candidate's level is enabled, and at or above FLOOR and the level one above the
top level; a pin reset sets FLOOR to 0 and enables every level, and RESTART leaves both. -/
def Obligations.FloorAndLevelEnables : Prop :=
  ∀ (s : State) (v : Byte),
    exec (.floorWrite v) s = .next { s with floor := Fin.ofNat 16 v.toNat } ∧
    exec (.lvenWrite .lven0 v) s = .next { s with lven0 := v } ∧
    exec (.lvenWrite .lven1 v) s = .next { s with lven1 := v } ∧
    (s.readRegister 0xC#4).toNat = s.floor.val ∧ s.readRegister 0xE#4 = s.lven0 ∧ s.readRegister 0xF#4 = s.lven1 ∧
    (∀ e ∈ s.candidates, ∀ k : Nat, (s.lineLevel e).val = k → s.floor.val ≤ k ∧
      (∀ top, s.topLevel = some top → max s.floor.val (top.val + 1) ≤ k) ∧
      (k < 8 → s.lven0.getLsbD k = true) ∧ (8 ≤ k → s.lven1.getLsbD (k - 8) = true)) ∧
    State.reset.floor = 0 ∧ State.reset.lven0 = 0xFF#8 ∧ State.reset.lven1 = 0xFF#8 ∧
    ∀ t, exec .restart s = .next t → t.floor = s.floor ∧ t.lven0 = s.lven0 ∧ t.lven1 = s.lven1

/-- R75, R78, R166: the registers of the Claim Window and TOP, field by field. -/
def Obligations.ClaimWindowAndTopRegisters : Prop :=
  ∀ s : State,
    (∀ (reason : NullReason) (k : Nat),
      (reason, k) ∈ [(NullReason.untouched, 0), (.none, 1), (.stackFull, 2), (.notRunning, 3), (.queueFull, 4)] →
      s.window = .null reason →
      s.readRegister 0x7#4 = 0x00#8 ∧ s.readRegister 0x8#4 = 0x00#8 ∧ (s.readRegister 0x9#4).toNat = k ∧
      s.readRegister 0xA#4 = 0x00#8 ∧ s.readRegister 0xB#4 = 0x00#8) ∧
    (∀ r : ClaimRecord, s.window = .claimed r → r.count ≤ 15 → r.payload.length ≤ 2 →
      (s.readRegister 0x7#4).toNat = 16 * r.source.val + r.line.val ∧
      (s.readRegister 0x8#4).toNat = 16 * r.level.val + r.count ∧
      (s.readRegister 0x9#4).toNat = 128 + 16 * r.payload.length + 8 * r.repost.toNat + 4 * r.stale.toNat +
        2 * r.auto.toNat + r.held.toNat ∧
      s.readRegister 0xA#4 = r.payload.getD 0 0x00#8 ∧ s.readRegister 0xB#4 = r.payload.getD 1 0x00#8) ∧
    (s.stack = [] → s.readRegister 0xD#4 = 0x00#8) ∧
    ∀ (below : List StackEntry) (top : StackEntry), s.stack = below ++ [top] → s.StackOrdered →
      (s.readRegister 0xD#4).toNat = 16 * top.level.val + (below.length + 1)

/-! ## Resolution and claims -/

/-- R48: a pending entry is a candidate exactly when the level of its line in the Line Map passes the three tests. -/
def Obligations.CandidatesPassTheThreeTests : Prop :=
  ∀ (s : State) (e : Entry),
    e ∈ s.candidates ↔ (∃ i : Fin 32, s.table[i] = some e) ∧ ∃ l : Level, l = s.lineMap[e.source][e.line].level ∧
      (if l.val < 8 then s.lven0.getLsbD l.val else s.lven1.getLsbD (l.val - 8)) = true ∧
      s.floor ≤ l ∧ ∀ top : StackEntry, s.stack.getLast? = some top → top.level < l

/-- R49: the winner is the candidate at the highest level, then from the first source after the pointer of that level in
ascending cyclic order, then on the lowest line; with no candidate there is none. -/
def Obligations.WinnerIsSelectedInThreeStages : Prop :=
  ∀ s : State, s.LinesUnique →
    (s.winner = none ↔ s.candidates = []) ∧
    ∀ (i : Fin 32) (e : Entry), s.winner = some (i, e) ↔
      s.table[i] = some e ∧ e ∈ s.candidates ∧ (∀ f ∈ s.candidates, s.lineLevel f ≤ s.lineLevel e) ∧
        (∀ f ∈ s.candidates, s.lineLevel f = s.lineLevel e →
          sourceDistance s.rotation[s.lineLevel e] e.source ≤ sourceDistance s.rotation[s.lineLevel e] f.source) ∧
        ∀ f ∈ s.candidates, s.lineLevel f = s.lineLevel e → f.source = e.source → e.line ≤ f.line

/-- R53: IRQ is asserted exactly when the mode is RUN, STOPPING or PAUSED, the stack holds fewer than 8 entries and there is a
candidate; the output is low while asserted, and released while nRST is low; STAT shows IRQ beside STACKFULL, and a STAT read does
not change it; in CONFIG, and so after a pin reset, it is released. -/
def Obligations.IrqFollowsTheThreeTerms : Prop :=
  ∀ s : State,
    (s.irq = true ↔ s.mode ∈ [Mode.run, .stopping, .paused] ∧ s.stack.length < 8 ∧ ∃ e, e ∈ s.candidates) ∧
    s.irqPin true = !s.irq ∧ s.irqPin false = true ∧ s.statByte.getLsbD 4 = s.irq ∧ (s.statByte.getLsbD 5 = true ↔ 8 ≤ s.stack.length) ∧
    (s.mode = .config → s.irq = false) ∧ State.reset.irq = false ∧ ∀ t, exec .statRead s = .next t → t.irq = s.irq

/-- R60 to R64: a claim in CONFIG, with a full stack, with no candidate, or of a remote AUTO winner that needs a slot of a full
queue changes nothing but the Claim Window, and returns 0. The tests are made in this order. -/
def Obligations.ClaimThatTakesNothing : Prop :=
  ∀ s : State,
    (s.mode = .config → exec .claim s = .next { s with window := .null .notRunning, readData := some 0x00#8 }) ∧
    (s.mode ≠ .config → 8 ≤ s.stack.length →
      exec .claim s = .next { s with window := .null .stackFull, readData := some 0x00#8 }) ∧
    (s.mode ≠ .config → s.stack.length < 8 → s.candidates = [] →
      exec .claim s = .next { s with window := .null .none, readData := some 0x00#8 }) ∧
    (s.mode ≠ .config → s.stack.length < 8 → 16 ≤ s.queue.length → ∀ (i : Fin 32) (e : Entry) (n : Node),
      s.winner = some (i, e) → s.lineMap[e.source][e.line].auto = true → e.source = n.castSucc → e.stale = false →
      s.nodes[n].state = .active →
      exec .claim s = .next { s with window := .null .queueFull, readData := some 0x00#8 })

/-- R65, R66, R51, R75: an ordinary claim moves the winner to the top of the stack with its captured level, which is above every
level beneath it; marks it stale if its node is not ACTIVE; moves the pointer; and fills the window. -/
def Obligations.OrdinaryClaimPushesTheWinner : Prop :=
  ∀ (s : State) (i : Fin 32) (e e' : Entry) (l : Level),
    s.mode ≠ .config → s.stack.length < 8 → s.winner = some (i, e) → s.lineMap[e.source][e.line].auto = false →
    l = s.lineMap[e.source][e.line].level →
    e' = { e with stale := e.stale || decide (∃ n : Node, e.source = n.castSucc ∧ s.nodes[n].state ≠ .active) } →
    exec .claim s = .next { s with
      table := s.table.set i none
      stack := s.stack ++ [⟨e', l, false⟩]
      rotation := s.rotation.set l e.source
      window := .claimed ⟨e.source, e.line, l, e.count, decide (e.kind = .held), false, e'.stale, e.repost, e.payload⟩
      readData := some (BitVec.ofNat 8 e.tag.val) } ∧
    (s.StackOrdered → ∀ x ∈ s.stack, x.level < l)

/-- R67, R66, R51, R75: an AUTO claim takes the winner out of the device: with one DONE SERVICED queued if it is remote, non-stale
and of an ACTIVE node, and with no queue check otherwise. -/
def Obligations.AutoClaimEndsTheWinner : Prop :=
  ∀ (s : State) (i : Fin 32) (e : Entry) (l : Level),
    s.mode ≠ .config → s.stack.length < 8 → s.winner = some (i, e) → s.lineMap[e.source][e.line].auto = true →
    l = s.lineMap[e.source][e.line].level →
    (∀ n : Node, e.source = n.castSucc → e.stale = false → s.nodes[n].state = .active → s.queue.length < 16 →
      exec .claim s = .next { s with
        table := s.table.set i none
        queue := s.queue ++ [⟨n, .done e.line .serviced⟩]
        rotation := s.rotation.set l e.source
        window := .claimed ⟨e.source, e.line, l, e.count, decide (e.kind = .held), true, false, e.repost, e.payload⟩
        readData := some (BitVec.ofNat 8 e.tag.val) }) ∧
    (∀ n : Node, e.source = n.castSucc → e.stale = true ∨ s.nodes[n].state ≠ .active →
      exec .claim s = .next { s with
        table := s.table.set i none
        rotation := s.rotation.set l e.source
        window := .claimed ⟨e.source, e.line, l, e.count, decide (e.kind = .held), true, true, e.repost, e.payload⟩
        readData := some (BitVec.ofNat 8 e.tag.val) }) ∧
    (e.source = 15 →
      exec .claim s = .next { s with
        table := s.table.set i none
        rotation := s.rotation.set l 15
        window := .claimed ⟨15, e.line, l, e.count, decide (e.kind = .held), true, e.stale, e.repost, e.payload⟩
        readData := some (BitVec.ofNat 8 e.tag.val) })

/-! ## Completion, discard and report -/

/-- R81 to R84, R86, R87: a completion that does not repost takes the named entry out of the stack in place; a local or stale one
in silence, whatever the queue; a non-stale EDGE or released one with a DONE SERVICED at the tail, or QUEUE_FULL.
COMPLETE_TOP does so to the top entry and writes its tag to ARG0. -/
def Obligations.CompletionEndsAnEntry : Prop :=
  ∀ (s : State) (below above : List StackEntry) (e : StackEntry) (tag : Byte),
    s.command = .idle → s.mode ≠ .config → s.TagsUnique → s.stack = below ++ e :: above →
    tag = BitVec.ofNat 8 e.entry.tag.val →
    (e.entry.source = 15 ∨ e.entry.stale = true →
      (s.arg0 = tag → exec .complete s = .next { s with stack := below ++ above, arg1 := 0x00#8, res := .ok }) ∧
      (above = [] → exec .completeTop s = .next { s with stack := below, arg0 := tag, arg1 := 0x00#8, res := .ok })) ∧
    (∀ n : Node, e.entry.source = n.castSucc → e.entry.stale = false → e.entry.kind = .edge ∨ e.released = true →
      (s.queue.length < 16 →
        (s.arg0 = tag → exec .complete s = .next { s with
          stack := below ++ above, queue := s.queue ++ [⟨n, .done e.entry.line .serviced⟩], arg1 := 0x00#8, res := .ok }) ∧
        (above = [] → exec .completeTop s = .next { s with
          stack := below, queue := s.queue ++ [⟨n, .done e.entry.line .serviced⟩], arg0 := tag, arg1 := 0x00#8,
          res := .ok })) ∧
      (16 ≤ s.queue.length →
        (s.arg0 = tag → exec .complete s = .next { s with res := .queueFull }) ∧
        (above = [] → exec .completeTop s = .next { s with arg0 := tag, res := .queueFull })))

/-- R31, R85, R87: the completion of a remote HELD entry, neither stale nor released, returns the occurrence to the Pending Table
in the lowest empty slot under a new tag, which ARG1 receives; the queue plays no part. -/
def Obligations.CompletionRepostsAHeldCondition : Prop :=
  ∀ (s : State) (below above : List StackEntry) (e : StackEntry) (n : Node) (i : Fin 32) (t : Tag),
    s.command = .idle → s.mode ≠ .config → s.TagsUnique → s.stack = below ++ e :: above → e.entry.source = n.castSucc →
    e.entry.stale = false → e.entry.kind = .held → e.released = false → s.NextPlace i t →
    (s.arg0 = BitVec.ofNat 8 e.entry.tag.val → exec .complete s = .next { s with
      table := s.table.set i (some ⟨t, e.entry.source, e.entry.line, .held, 1, e.entry.payload, false, true⟩)
      lastTag := t, stack := below ++ above, arg1 := BitVec.ofNat 8 t.val, res := .ok }) ∧
    (above = [] → exec .completeTop s = .next { s with
      table := s.table.set i (some ⟨t, e.entry.source, e.entry.line, .held, 1, e.entry.payload, false, true⟩)
      lastTag := t, stack := below, arg0 := BitVec.ofNat 8 e.entry.tag.val, arg1 := BitVec.ofNat 8 t.val, res := .ok })

/-- R81, R86: a completion in CONFIG gives BAD_MODE; one that names no stack entry (tag 0 and tags above 63 among them) gives
NO_TAG. Nothing but RES changes. -/
def Obligations.CompletionRefusals : Prop :=
  ∀ s : State, s.command = .idle →
    (s.mode = .config →
      exec .complete s = .next { s with res := .badMode } ∧ exec .completeTop s = .next { s with res := .badMode }) ∧
    (s.mode ≠ .config → (s.arg0 = 0x00#8 ∨ ∀ e ∈ s.stack, BitVec.ofNat 8 e.entry.tag.val ≠ s.arg0) →
      exec .complete s = .next { s with res := .noTag }) ∧
    (s.mode ≠ .config → s.stack = [] → exec .completeTop s = .next { s with res := .noTag })

/-- R35, R89: DISCARD takes the pending entry of its tag out of the device: with a DONE DISCARDED if it is remote and non-stale,
which needs a queue slot, and with no queue check otherwise; and its refusals, which change RES only. -/
def Obligations.DiscardRemovesAPendingEntry : Prop :=
  ∀ s : State, s.command = .idle → s.TagsUnique →
    (s.mode = .config → exec .discard s = .next { s with res := .badMode }) ∧
    (s.mode ≠ .config → (∀ t ∈ s.liveTags, BitVec.ofNat 8 t.val ≠ s.arg0) →
      exec .discard s = .next { s with res := .noTag }) ∧
    (s.mode ≠ .config → ∀ e ∈ s.stack, BitVec.ofNat 8 e.entry.tag.val = s.arg0 →
      exec .discard s = .next { s with res := .inService }) ∧
    (s.mode ≠ .config → ∀ (i : Fin 32) (e : Entry), s.table[i] = some e → BitVec.ofNat 8 e.tag.val = s.arg0 →
      (e.source = 15 ∨ e.stale = true → exec .discard s = .next { s with table := s.table.set i none, res := .ok }) ∧
      ∀ n : Node, e.source = n.castSucc → e.stale = false →
        (s.queue.length < 16 → exec .discard s = .next { s with
          table := s.table.set i none, queue := s.queue ++ [⟨n, .done e.line .discarded⟩], res := .ok }) ∧
        (16 ≤ s.queue.length → exec .discard s = .next { s with res := .queueFull }))

/-- R164: GET_ENTRY reports where the tag in ARG0 is found, and the entry; in every mode. In CONFIG outside a RESTART no tag is
live, and every GET_ENTRY gives NO_TAG. -/
def Obligations.GetEntryReportsTheTag : Prop :=
  ∀ s : State, s.command = .idle → s.TagsUnique →
    ((∀ t ∈ s.liveTags, BitVec.ofNat 8 t.val ≠ s.arg0) →
      exec .getEntry s = .next { s with arg1 := 0x00#8, arg2 := 0x00#8, arg3 := 0x00#8, res := .noTag }) ∧
    (∀ (i : Fin 32) (e : Entry), s.table[i] = some e → BitVec.ofNat 8 e.tag.val = s.arg0 →
      exec .getEntry s = .next { s with
        arg1 := BitVec.ofNat 8 (16 * s.lineMap[e.source][e.line].level.val + 1)
        arg2 := BitVec.ofNat 8 (16 * e.source.val + 8 * (decide (e.kind = .held)).toNat + e.line.val)
        arg3 := BitVec.ofNat 8 (32 * e.repost.toNat + 16 * e.stale.toNat + e.count)
        res := .ok }) ∧
    (∀ e ∈ s.stack, BitVec.ofNat 8 e.entry.tag.val = s.arg0 →
      exec .getEntry s = .next { s with
        arg1 := BitVec.ofNat 8 (16 * e.level.val + 2)
        arg2 := BitVec.ofNat 8 (16 * e.entry.source.val + 8 * (decide (e.entry.kind = .held)).toNat + e.entry.line.val)
        arg3 := BitVec.ofNat 8
          (64 * e.released.toNat + 32 * e.entry.repost.toNat + 16 * e.entry.stale.toNat + e.entry.count)
        res := .ok }) ∧
    (s.ConfigEmpty → s.mode = .config →
      exec .getEntry s = .next { s with arg1 := 0x00#8, arg2 := 0x00#8, arg3 := 0x00#8, res := .noTag })

/-! ## Configuration commands -/

/-- R12, R13: the checks of SET_LINE in their order, each changing RES only, and the write of all four fields when they pass. A line
is occupied while an entry of it is pending or in service (R11). -/
def Obligations.SetLineChecksThenWrites : Prop :=
  ∀ s : State,
    (s.command ≠ .idle → exec .setLine s = .next { s with cmdLost := true }) ∧
    (s.command = .idle → 16 ≤ s.arg0.toNat ∨ 8 ≤ s.arg1.toNat → exec .setLine s = .next { s with res := .badArg }) ∧
    (s.command = .idle → ∀ (src : Source) (line : Line) (c : LineConfig) (occupied : Prop),
      s.arg0.toNat = src.val → s.arg1.toNat = line.val →
      (occupied ↔ (∃ e ∈ s.pendingEntries, e.source = src ∧ e.line = line) ∨
        ∃ e ∈ s.stack, e.entry.source = src ∧ e.entry.line = line) →
      c = ⟨Fin.ofNat 16 s.arg2.toNat, if s.arg3.getLsbD 1 then .held else .edge, s.arg3.getLsbD 0, s.arg3.getLsbD 2⟩ →
      (src = 15 ∧ c.kind = .held → exec .setLine s = .next { s with res := .badArg }) ∧
      (c.kind = .held ∧ c.auto = true → exec .setLine s = .next { s with res := .badArg }) ∧
      (¬ (src = 15 ∧ c.kind = .held) → ¬ (c.kind = .held ∧ c.auto = true) →
        (c.kind ≠ s.lineMap[src][line].kind ∧ occupied →
          exec .setLine s = .next { s with res := .inUse }) ∧
        (c.kind = s.lineMap[src][line].kind ∨ ¬ occupied →
          ∃ m : Vector (Vector LineConfig 8) 16, exec .setLine s = .next { s with lineMap := m, res := .ok } ∧
            m[src][line] = c ∧
            ∀ (src' : Source) (line' : Line), src' ≠ src ∨ line' ≠ line → m[src'][line'] = s.lineMap[src'][line'])))

/-- R11, R18: GET_LINE reports the four fields of the entry and the four occupancy indications, in every mode. -/
def Obligations.GetLineReportsConfigurationAndOccupancy : Prop :=
  ∀ s : State,
    (s.command ≠ .idle → exec .getLine s = .next { s with cmdLost := true }) ∧
    (s.command = .idle → 16 ≤ s.arg0.toNat ∨ 8 ≤ s.arg1.toNat → exec .getLine s = .next { s with res := .badArg }) ∧
    (s.command = .idle → ∀ (src : Source) (line : Line) (p r x : Bool) (n : Nat),
      s.arg0.toNat = src.val → s.arg1.toNat = line.val →
      (p = true ↔ ∃ e ∈ s.pendingEntries, e.source = src ∧ e.line = line) →
      n = (s.stack.filter fun e => decide (e.entry.source = src ∧ e.entry.line = line)).length →
      (r = true ↔ ∃ e ∈ s.stack, e.entry.source = src ∧ e.entry.line = line ∧ e.released = true) →
      (x = true ↔ (∃ e ∈ s.pendingEntries, e.source = src ∧ e.line = line ∧ e.stale = true) ∨
        ∃ e ∈ s.stack, e.entry.source = src ∧ e.entry.line = line ∧ e.entry.stale = true) →
      exec .getLine s = .next { s with
        arg2 := BitVec.ofNat 8 (64 * s.lineMap[src][line].auto.toNat +
          32 * (decide (s.lineMap[src][line].kind = .held)).toNat + 16 * s.lineMap[src][line].enable.toNat +
          s.lineMap[src][line].level.val)
        arg3 := BitVec.ofNat 8 (16 * n + 4 * x.toNat + 2 * r.toNat + p.toNat)
        res := .ok })

/-- R140: SET_NODE refuses a node above 14 and a limit of 0, and otherwise writes the join setting and the configured limit. -/
def Obligations.SetNodeWritesTwoFields : Prop :=
  ∀ s : State, s.command = .idle →
    (15 ≤ s.arg0.toNat ∨ s.arg1.toNat % 8 = 0 → exec .setNode s = .next { s with res := .badArg }) ∧
    ∀ n : Node, s.arg0.toNat = n.val → s.arg1.toNat % 8 ≠ 0 →
      exec .setNode s = .next { s with
        nodes := s.nodes.set n
          { s.nodes[n] with join := s.arg1.getLsbD 3, configLimit := Fin.ofNat 8 (s.arg1.toNat % 8) }
        res := .ok }

/-- R142, R166: GET_NODE reports the record of its node in ARG0 to ARG3, in every mode. -/
def Obligations.GetNodeReportsTheRecord : Prop :=
  ∀ s : State,
    (s.command ≠ .idle → exec .getNode s = .next { s with cmdLost := true }) ∧
    (s.command = .idle → 15 ≤ s.arg0.toNat → exec .getNode s = .next { s with res := .badArg }) ∧
    (s.command = .idle → ∀ (n : Node) (r : NodeRecord) (k : Nat), s.arg0.toNat = n.val → r = s.nodes[n] →
      (match r.state with
        | .absent => k = 0
        | .joining => k = 1
        | .active => k = 2
        | .lost => k = 3
        | .leaving => k = 4) →
      exec .getNode s = .next { s with
        arg0 := BitVec.ofNat 8 (16 * r.declared.val + 8 * r.join.toNat + k)
        arg1 := BitVec.ofNat 8
          (128 * r.newEntry.toNat + 64 * r.ackValid.toNat + 8 * r.lastAck.val + r.expected.val)
        arg2 := BitVec.ofNat 8 (16 * r.configLimit.val + r.admittedLimit.val)
        arg3 := BitVec.ofNat 8 r.faults
        res := .ok })

/-- R141, R163: SET_LINK writes DIV, the reply wait and the fault limit in CONFIG and PAUSED, and refuses other modes and values
out of range. The slot in flight keeps the values it read, and no node's count changes. -/
def Obligations.SetLinkWritesThreeParameters : Prop :=
  ∀ s : State, s.command = .idle →
    (s.mode ≠ .config → s.mode ≠ .paused → exec .setLink s = .next { s with res := .badMode }) ∧
    (s.mode = .config ∨ s.mode = .paused →
      (s.arg1.toNat < 4 ∨ 31 < s.arg1.toNat ∨ s.arg2.toNat = 0 ∨ 7 < s.arg2.toNat →
        exec .setLink s = .next { s with res := .badArg }) ∧
      (4 ≤ s.arg1.toNat → s.arg1.toNat ≤ 31 → 1 ≤ s.arg2.toNat → s.arg2.toNat ≤ 7 →
        exec .setLink s = .next { s with
          div := s.arg0.toNat, replyWait := s.arg1.toNat, faultLimit := s.arg2.toNat, res := .ok }))

/-! ## Modes, RESTART and the pin reset -/

/-- R159, R160, R161, R163: START is taken in CONFIG and RESUME in PAUSED; each sets RUN and OK and changes nothing else. STOP, taken in
RUN with a slot in flight, sets BUSY and STOPPING and leaves RES. In every other mode each gives BAD_MODE. The Scheduler's choice
that follows START or RESUME is a command of its own (log entry 12). -/
def Obligations.StartStopAndResume : Prop :=
  ∀ s : State, s.command = .idle →
    (s.mode = .config → exec .start s = .next { s with mode := .run, res := .ok }) ∧
    (s.mode ≠ .config → exec .start s = .next { s with res := .badMode }) ∧
    (s.mode = .paused → exec .resume s = .next { s with mode := .run, res := .ok }) ∧
    (s.mode ≠ .paused → exec .resume s = .next { s with res := .badMode }) ∧
    (s.mode = .run → s.link ≠ .idle → exec .stop s = .next { s with mode := .stopping, command := .stop }) ∧
    (s.mode ≠ .run → exec .stop s = .next { s with res := .badMode })

/-- R151, R160, R39, R30: the end of STOP (at once with the link idle, or at the end of the guard) and the end of the RETIRE walk
post COMMAND_DONE, write OK and clear BUSY in one happening: nothing is posted on a disabled line 6, the count of a pending
entry of it rises and stops at 15, and otherwise a new entry is inserted. No condition is waiting at the end of STOP here;
the next statement says what is done with those that wait. The model's: conditions that wait at the end of a RETIRE wait on
(log entry 19), and the bit timer reads 0 at the end of the guard (log entry 8). -/
def Obligations.EndOfStopAndRetirePostsCommandDone : Prop :=
  ∀ (s base : State) (out : Host.Outcome State Fault Refusal), s.LinesUnique →
    (s.mode = .run ∧ s.command = .idle ∧ s.link = .idle ∧ s.raised = [] ∧ out = exec .stop s ∧
        base = { s with mode := .paused }) ∨
      (s.mode = .stopping ∧ s.link = .guard ∧ s.raised = [] ∧ out = exec .guardEnd s ∧
        base = { s with mode := .paused, link := .idle, bitTimer := 0, txBuffer := none }) ∨
      (∃ n : Node, s.command = .retire n 31 ∧ out = exec .retireWalkStep s ∧
        base = { s with table := s.table.set 31 (s.table[31].filter fun e => decide (e.source ≠ n.castSucc)) }) →
    (s.lineMap[15][6].enable = false → out = .next { base with command := .idle, res := .ok }) ∧
    (s.lineMap[15][6].enable = true → ∀ (i : Fin 32) (e : Entry),
      base.table[i] = some e → e.source = 15 → e.line = 6 → e.payload = [] →
      out = .next { base with
        table := base.table.set i (some { e with count := min (e.count + 1) 15 }), command := .idle, res := .ok }) ∧
    (s.lineMap[15][6].enable = true → (∀ e ∈ base.pendingEntries, ¬ (e.source = 15 ∧ e.line = 6)) →
      ∀ (i : Fin 32) (t : Tag), base.NextPlace i t →
      out = .next { base with
        table := base.table.set i (some ⟨t, 15, 6, .edge, 1, [], false, false⟩), lastTag := t, command := .idle, res := .ok })

/-- The conditions that wait at the end of STOP are posted before COMMAND_DONE, oldest first, as LOCAL_POSTINGs taken one by one
(the model's reading of R151, log entry 5). -/
def Obligations.EndOfStopPostsWaitingConditionsFirst : Prop :=
  ∀ (s t : State) (c : LocalCondition) (rest : List LocalCondition),
    s.raised = c :: rest → exec (.localPosting c) s = .next t →
    (s.mode = .run → s.command = .idle → s.link = .idle → exec .stop s = exec .stop t) ∧
    (s.mode = .stopping → s.link = .guard → exec .guardEnd s = exec .guardEnd t)

/-- R162, R111, R143, R58, R113, R77: what RESTART does when it is taken. The waiting conditions are discarded (log entry 15), and
the bit timer is the model's (log entry 8). -/
def Obligations.RestartBeginsTheClear : Prop :=
  ∀ s : State, s.command = .idle →
    ∃ nodes : Vector NodeRecord 15,
      exec .restart s = .next { s with
        command := .restart 0, mode := .config, link := if s.link = .idle then .idle else .guard, txBuffer := none
        shiftReg := [], holding := none, stack := [], queue := [], nodes := nodes, rotation := Vector.replicate 16 15
        ring := 14, discovery := 14, burst := .clear, outCount := 0, window := .null .untouched, raised := [] } ∧
      ∀ n : Node, nodes[n] = ⟨.absent, s.nodes[n].join, s.nodes[n].configLimit, 0, 0, 0, false, false, 0, 0⟩

/-- R39, R41, R162: a step of the RESTART walk empties its slot, and the last one also leaves 63 as the last allocated tag, writes OK and
clears BUSY; a step of the RETIRE walk before the last removes the entry in its slot if the retired node is its source, and
leaves the slot otherwise. -/
def Obligations.WalkStepsVisitOneSlot : Prop :=
  ∀ (s : State) (n : Node) (i j : Fin 32), j.val = i.val + 1 →
    (s.command = .restart i →
      exec .restartClearStep s = .next { s with table := s.table.set i none, command := .restart j }) ∧
    (s.command = .restart 31 → exec .restartClearStep s =
      .next { s with table := s.table.set 31 none, command := .idle, lastTag := 63, res := .ok }) ∧
    (s.command = .retire n i →
      (∀ e, s.table[i] = some e → e.source = n.castSucc →
        exec .retireWalkStep s = .next { s with table := s.table.set i none, command := .retire n j }) ∧
      (s.table[i] = none ∨ (∃ e, s.table[i] = some e ∧ e.source ≠ n.castSucc) →
        exec .retireWalkStep s = .next { s with command := .retire n j }))

/-- R41, R162, R25: RESTART and its 32 walk steps, run from any state with the Command Unit idle, leave the Pending Table empty, no tag
live, the pool count 0, the last allocated tag 63, BUSY clear and RES OK, in CONFIG. -/
def Obligations.RestartLeavesTheDeviceEmpty : Prop :=
  ∀ (s : State) (rest : List Instr), s.command = .idle →
    s.pending = .restart :: (List.replicate 32 .restartClearStep ++ rest) →
    ∃ t : State, Sys2Proof.core.run 33 s = .next t ∧ t.pending = rest ∧ (∀ i : Fin 32, t.table[i] = none) ∧ t.liveTags = [] ∧
      t.poolCount = 0 ∧ t.lastTag = 63 ∧ t.command = .idle ∧ t.res = .ok ∧ t.mode = .config ∧ t.queue = [] ∧
      t.lineMap = s.lineMap ∧ t.cmdLost = s.cmdLost ∧ t.irq = false

/-- R170, R165: a low level of 4 REFCLK periods or more is taken as a pin reset, with every item at its reset value; a shorter one
is taken whole or leaves the state unchanged, and nothing says which (log entry 6). The queue of waiting commands and the
count of free values are the model's own fields. -/
def Obligations.PinResetResetsEverything : Prop :=
  ∀ (s : State) (periods : Nat),
    (4 ≤ periods →
      exec (.pinReset periods) s = .next { State.reset with pending := s.pending, freeCount := s.freeCount }) ∧
    (periods < 4 → exec (.pinReset periods) s = .next
      (if Config.shortResetTaken s.freeCount then
        { State.reset with pending := s.pending, freeCount := s.freeCount + 1 }
      else { s with freeCount := s.freeCount + 1 }))

/-- R165, R7, R42, R58, R74, R112, R113, R131, R143: the values the spec gives for a pin reset. -/
def Obligations.ResetValues : Prop :=
  State.reset.mode = .config ∧ State.reset.busy = false ∧ State.reset.statByte = 0x00#8 ∧ State.reset.topByte = 0x00#8 ∧
    (∀ a : BitVec 4, a.toNat ≤ 13 → State.reset.readRegister a = 0x00#8) ∧
    State.reset.readRegister 0xE#4 = 0xFF#8 ∧ State.reset.readRegister 0xF#4 = 0xFF#8 ∧
    (∀ (src : Source) (line : Line), State.reset.lineMap[src][line] = ⟨0, .edge, false, false⟩) ∧
    (∀ i : Fin 32, State.reset.table[i] = none) ∧ State.reset.lastTag = 63 ∧
    (∀ l : Level, State.reset.rotation[l] = 15) ∧ State.reset.stack = [] ∧ State.reset.queue = [] ∧
    (∀ n : Node, State.reset.nodes[n] = ⟨.absent, false, 4, 0, 0, 0, false, false, 0, 0⟩) ∧ State.reset.div = 99 ∧
    State.reset.replyWait = 12 ∧ State.reset.faultLimit = 3 ∧ State.reset.ring = 14 ∧ State.reset.discovery = 14 ∧
    State.reset.burst = .clear ∧ State.reset.outCount = 0 ∧ State.reset.link = .idle ∧ State.reset.txBuffer = none ∧
    State.reset.shiftReg = [] ∧ State.reset.holding = none ∧ State.reset.irqPin true = true ∧
    ∀ i, State.reset.lck true i = false ∧ State.reset.ldo true i = true

/-! ## RETIRE -/

/-- R138, R38: the checks of RETIRE in their order, each changing RES only, and the changes made when it starts. -/
def Obligations.RetireChecksAndBegins : Prop :=
  ∀ s : State, s.command = .idle →
    (s.mode = .config → exec .retire s = .next { s with res := .badMode }) ∧
    (s.mode ≠ .config → 15 ≤ s.arg0.toNat → exec .retire s = .next { s with res := .badArg }) ∧
    (s.mode ≠ .config → ∀ n : Node, s.arg0.toNat = n.val →
      (s.nodes[n].state = .absent → exec .retire s = .next { s with res := .noNode }) ∧
      (s.nodes[n].state ≠ .absent → 16 ≤ s.queue.length → exec .retire s = .next { s with res := .queueFull }) ∧
      (s.nodes[n].state ≠ .absent → s.queue.length < 16 →
        ∃ table : Vector (Option Entry) 32,
          exec .retire s = .next { s with
            command := .retire n 0
            nodes := s.nodes.set n { s.nodes[n] with state := .leaving, join := false, admittedLimit := 0 }
            queue := (s.queue.filter fun f => !decide (f.dest = n ∧ f.body.kind = .done)) ++ [⟨n, .eject⟩]
            stack := s.stack.map fun e =>
              if e.entry.source = n.castSucc then { e with entry := { e.entry with stale := true } } else e
            table := table } ∧
          ∀ i : Fin 32, table[i] = s.table[i].map fun e => if e.source = n.castSucc then { e with stale := true } else e))

/-- R39: the 32 steps of the RETIRE walk, run with line 6 disabled and nothing between them, remove every entry of the node from
the table and no other, write OK and clear BUSY. -/
def Obligations.RetireWalkRemovesTheNodesEntries : Prop :=
  ∀ (s : State) (n : Node) (rest : List Instr), s.command = .retire n 0 → s.lineMap[15][6].enable = false →
    s.pending = List.replicate 32 .retireWalkStep ++ rest →
    ∃ table : Vector (Option Entry) 32,
      Sys2Proof.core.run 32 s = .next { s with table := table, command := .idle, res := .ok, pending := rest } ∧
      ∀ i : Fin 32, table[i] = s.table[i].filter fun e => decide (e.source ≠ n.castSucc)

/-! ## The Scheduler -/

/-- R115, R116, R120, R101, R96: with the outbound count below 2, a choice drops the head frames that fail the head check, and loads
the first that passes: a DONE for an ACTIVE node, an ADMIT for a JOINING one, any EJECT; when none passes, the choice goes on as
with the queue empty. With the count at 2 the queue is not touched, and no outbound frame is loaded. That the bit timer reads
0 at the load is the model's count (log entry 8), and that a burst flag armed for a lost node stays armed over an outbound load its
reading of R136 (log entry 26). -/
def Obligations.ChoiceTakesOutboundFrames : Prop :=
  ∀ (s : State) (ok : OutFrame → Prop),
    (∀ g, ok g ↔
      g.body.kind = .eject ∨ (g.body.kind = .done ∧ s.nodes[g.dest].state = .active) ∨
        (g.body.kind = .admitFrame ∧ s.nodes[g.dest].state = .joining)) →
    s.mode = .run → s.link = .idle →
    (s.outCount < 2 → ∀ (dropped rest : List OutFrame) (f : OutFrame),
      s.queue = dropped ++ f :: rest → (∀ g ∈ dropped, ¬ ok g) → ok f →
      exec .schedulerChoice s = .next { s with
        queue := rest, outCount := s.outCount + 1, txBuffer := some (TxFrame.build f.dest f.body.kind f.body.arg)
        link := .send, slotDiv := s.div, slotWait := s.replyWait, bitTimer := 0, shiftReg := [] }) ∧
    (s.outCount < 2 → (∀ g ∈ s.queue, ¬ ok g) →
      exec .schedulerChoice s = exec .schedulerChoice { s with queue := [] }) ∧
    (2 ≤ s.outCount → ∃ t, exec .schedulerChoice s = .next t ∧ t.queue = s.queue ∧
      ∀ f, t.link = .send → t.txBuffer = some f → f.kind = .poll ∨ f.kind = .probe)

/-- R115, R117, R118: with no outbound frame to load, a burst flag armed for an ACTIVE node gives it a POLL and becomes spent, and one
armed for a node that is not ACTIVE is cleared and the choice goes on; with no burst, the choice polls the lowest ACTIVE node
above the ring position (any, with the position at 15), moves the position to it, and clears a spent flag. That the bit timer
reads 0 at the load is the model's count (log entry 8). -/
def Obligations.BurstAndRingPolls : Prop :=
  ∀ (s : State) (n : Node), s.mode = .run → s.link = .idle → 2 ≤ s.outCount ∨ s.queue = [] →
    (s.burst = .armed n → s.nodes[n].state = .active → ∃ arg : Byte, exec .schedulerChoice s = .next { s with
      burst := .spent, outCount := 0, txBuffer := some (TxFrame.build n .poll arg), link := .send, slotDiv := s.div
      slotWait := s.replyWait, bitTimer := 0, shiftReg := [] }) ∧
    (s.burst = .armed n → s.nodes[n].state ≠ .active →
      exec .schedulerChoice s = exec .schedulerChoice { s with burst := .clear }) ∧
    (s.burst = .clear ∨ s.burst = .spent → s.nodes[n].state = .active → (s.ring = 15 ∨ s.ring.val < n.val) →
      (∀ m : Node, s.nodes[m].state = .active → (s.ring = 15 ∨ s.ring.val < m.val) → n ≤ m) →
      ∃ arg : Byte, exec .schedulerChoice s = .next { s with
        ring := n.castSucc, outCount := 0, burst := .clear, txBuffer := some (TxFrame.build n .poll arg), link := .send
        slotDiv := s.div, slotWait := s.replyWait, bitTimer := 0, shiftReg := [] })

/-- R115, R118, R119: with no ACTIVE node above the ring position, the pass ends: the first node that qualifies, in ascending cyclic
order from the one after the discovery pointer, is probed; when none does, the lowest ACTIVE node is polled; when there is none
either, nothing is loaded. That the bit timer reads 0 at the load is the model's count (log entry 8). -/
def Obligations.PassEndsWithADiscoverySlot : Prop :=
  ∀ (s : State) (qualifies : Node → Prop),
    (∀ n, qualifies n ↔ s.nodes[n].join = true ∧ (s.nodes[n].state = .absent ∨ s.nodes[n].state = .lost)) →
    s.mode = .run → s.link = .idle → 2 ≤ s.outCount ∨ s.queue = [] → s.burst = .clear ∨ s.burst = .spent →
    (∀ m : Node, s.nodes[m].state = .active → s.ring ≠ 15 ∧ m.val ≤ s.ring.val) →
    (∀ n, qualifies n → (∀ m, qualifies m → nodeDistance s.discovery n ≤ nodeDistance s.discovery m) →
      exec .schedulerChoice s = .next { s with
        ring := 15, discovery := n, outCount := 0, burst := .clear, txBuffer := some (TxFrame.build n .probe 0x00#8)
        link := .send, slotDiv := s.div, slotWait := s.replyWait, bitTimer := 0, shiftReg := [] }) ∧
    ((∀ n, ¬ qualifies n) →
      (∀ n : Node, s.nodes[n].state = .active → (∀ m : Node, s.nodes[m].state = .active → n ≤ m) →
        ∃ arg : Byte, exec .schedulerChoice s = .next { s with
          ring := n.castSucc, outCount := 0, burst := .clear, txBuffer := some (TxFrame.build n .poll arg), link := .send
          slotDiv := s.div, slotWait := s.replyWait, bitTimer := 0, shiftReg := [] }) ∧
      ((∀ n : Node, s.nodes[n].state ≠ .active) → exec .schedulerChoice s = .next { s with ring := 15 }))

/-- R126, R98, R99: every POLL that a choice loads goes to an ACTIVE node and carries its last acknowledged sequence, its ack valid
setting, its last new-entry indication and the hold indication as they stand at the load: hold while the pool count is 24 or
the node's held credits have reached its admitted limit. -/
def Obligations.PollCarriesAcknowledgementAndHold : Prop :=
  ∀ (s t : State) (f : TxFrame) (r : NodeRecord) (hold : Bool), s.PoolBounded → s.mode = .run → s.link = .idle →
    exec .schedulerChoice s = .next t → t.link = .send → t.txBuffer = some f → f.kind = .poll → r = s.nodes[f.dest] →
    (hold = true ↔ s.poolCount = 24 ∨ r.admittedLimit.val ≤
      (s.pendingEntries.filter fun e => decide (e.source = f.dest.castSucc ∧ e.stale = false)).length +
        (s.stack.filter fun e => decide (e.entry.source = f.dest.castSucc ∧ e.entry.stale = false)).length +
        (t.queue.filter fun g => decide (g.dest = f.dest ∧ g.body.kind = .done)).length) →
    r.state = .active ∧
    f.arg = BitVec.ofNat 8 (32 * hold.toNat + 16 * r.newEntry.toNat + 8 * r.ackValid.toNat + r.lastAck.val) ∧
    f.bytes = [BitVec.ofNat 8 (16 + f.dest.val), f.arg, crc8 0x00#8 [BitVec.ofNat 8 (16 + f.dest.val), f.arg]]

/-! ## The Event Link -/

/-- R98: each byte is combined into the check register by exclusive-or and the register advanced eight times; the seed is 00h
downstream and the node number upstream; two seeds never give one check byte for the same bytes, so a reply sent in another
node's window fails; and the examples of the rule. -/
def Obligations.CheckByteFollowsTheRule : Prop :=
  (∀ r : Byte, crcAdvance r = (if r.getLsbD 7 then 0x07#8 else 0x00#8) ^^^ (r <<< 1)) ∧
    (∀ (seed : Byte), crc8 seed [] = seed) ∧
    (∀ (seed b : Byte) (bytes : List Byte), crc8 seed (bytes ++ [b]) = crcAdvance^[8] (crc8 seed bytes ^^^ b)) ∧
    (∀ (bytes : List Byte) (x y : Byte), x ≠ y → crc8 x bytes ≠ crc8 y bytes) ∧
    (∀ (n : Node) (kind : FrameKind) (arg : Byte), (TxFrame.build n kind arg).check =
      crc8 0x00#8 [BitVec.ofNat 8 (16 * kind.code + n.val), arg]) ∧
    (∀ (n : Node) (bytes : List Byte) (c : Byte),
      checkPasses n (bytes ++ [c]) = true ↔ c = crc8 (BitVec.ofNat 8 n.val) bytes) ∧
    (∀ (n m : Node) (bytes : List Byte), n ≠ m → checkPasses n bytes = true → checkPasses m bytes = false) ∧
    crc8 0x00#8 [0x13#8] = 0x79#8 ∧ crc8 0x00#8 [0x13#8, 0x1A#8] = 0x2E#8 ∧ crc8 0x03#8 [0x2D#8] = 0xCA#8 ∧
    crc8 0x03#8 [0x2D#8, 0x10#8] = 0x08#8 ∧ crc8 0x03#8 [0x2D#8, 0x10#8, 0x5A#8] = 0xB9#8 ∧
    crc8 0x04#8 [0x2D#8] = 0xDF#8 ∧ crc8 0x04#8 [0x2D#8, 0x10#8] = 0x63#8 ∧ crc8 0x04#8 [0x2D#8, 0x10#8, 0x5A#8] = 0xAF#8

/-- R97, R99: the layout of the downstream frames: kind and destination in byte 0, the argument byte of each kind, and on the wire a
start bit 0 and three bytes, least significant bit first, in 25 bit times; the bytes of a reply go least significant bit first
too. R95, R96, R100, R112, R170: the link pins: LCK runs in SEND, WAIT, READ and DRAIN, low for the first DIV + 1 REFCLK periods of
a bit time and high for the second, and is low otherwise; LDO carries the bits of the frame in SEND and is high otherwise; while
nRST is low LCK is low and LDO high. -/
def Obligations.DownstreamFramesCarryTheirFields : Prop :=
  ∀ (n : Node) (arg : Byte),
    (∀ (kind : FrameKind) (k : Nat), (kind, k) ∈ [(FrameKind.poll, 1), (.probe, 2), (.done, 3), (.admitFrame, 4), (.eject, 5)] →
      ∃ check : Byte, (TxFrame.build n kind arg).bytes = [BitVec.ofNat 8 (16 * k + n.val), arg, check]) ∧
    (∀ line : Line, (OutBody.done line .serviced).arg.toNat = line.val ∧
      (OutBody.done line .discarded).arg.toNat = 8 + line.val ∧ (OutBody.done line .withdrawn).arg.toNat = 16 + line.val) ∧
    (∀ limit : Credit, (OutBody.admitFrame limit).arg.toNat = limit.val) ∧ OutBody.eject.arg = 0x00#8 ∧
    ∀ f : TxFrame, f.wire.length = 25 ∧ f.wire[0]? = some false ∧
      (∀ (i j : Nat) (b : Byte), f.bytes[i]? = some b → j < 8 → f.wire[1 + 8 * i + j]? = some (b.getLsbD j)) ∧
    (∀ (bytes : List Byte) (i j : Nat) (b : Byte), bytes[i]? = some b → j < 8 →
      (wireBits bytes)[8 * i + j]? = some (b.getLsbD j)) ∧
    ∀ (s : State) (i : Nat),
      s.lck false i = false ∧ s.ldo false i = true ∧ s.bitPeriods = 2 * (s.slotDiv + 1) ∧
      (s.link ∈ [LinkState.send, .wait, .read, .drain] → ∀ period : Nat,
        (i < s.slotDiv + 1 → s.lck true (period * (2 * (s.slotDiv + 1)) + i) = false) ∧
        (s.slotDiv + 1 ≤ i → i < 2 * (s.slotDiv + 1) → s.lck true (period * (2 * (s.slotDiv + 1)) + i) = true)) ∧
      (s.link = .idle ∨ s.link = .guard → s.lck true i = false) ∧ (s.link ≠ .send → s.ldo true i = true) ∧
      (s.link = .send → s.txBuffer = some f → ∀ b, f.wire[i]? = some b → s.ldo true i = b)

/-- R97, R99, R104, R105: how a reply is read from the samples of LDI after the start bit: the type, the fields of an EVENT and of
a HELLO, and the three framing errors with the byte that ends each. Bits after the reply are not read, and where the node has
stopped driving the bits read as 1. -/
def Obligations.RepliesAreReadByTheLayout : Prop :=
  (∀ (ldi : List Bool) (k : Nat), readReply (ldi ++ List.replicate k true) = readReply ldi) ∧
  ∀ (b0 b1 b2 b3 b4 : Byte) (more : List Bool),
    (b0.toNat % 4 = 0 → readReply (wireBits [b0, b1] ++ more) = .complete [b0, b1] .idle) ∧
    (b0.toNat % 4 = 2 → ∃ d : Fin 9, d.val = b1.toNat % 8 + 1 ∧
      readReply (wireBits [b0, b1, b2] ++ more) = .complete [b0, b1, b2] (.hello d)) ∧
    (b0.toNat % 4 = 3 → readReply (wireBits [b0] ++ more) = .framing [b0]) ∧
    (b0.toNat % 4 = 1 → b0.toNat / 32 % 4 = 3 → readReply (wireBits [b0] ++ more) = .framing [b0]) ∧
    (b0.toNat % 4 = 1 → b0.toNat / 32 % 4 ≠ 3 → b1.toNat % 4 = 3 →
      readReply (wireBits [b0, b1] ++ more) = .framing [b0, b1]) ∧
    (b0.toNat % 4 = 1 → b1.toNat % 4 ≠ 3 → ∃ (seq : Seq) (line : Line) (kind : EventKind),
      seq.val = b0.toNat / 4 % 8 ∧ line.val = b1.toNat / 4 % 8 ∧
      (b1.toNat % 4 = 0 ∧ kind = .pulse ∨ b1.toNat % 4 = 1 ∧ kind = .assert ∨ b1.toNat % 4 = 2 ∧ kind = .release) ∧
      (b0.toNat / 32 % 4 = 0 → readReply (wireBits [b0, b1, b2] ++ more) =
        .complete [b0, b1, b2] (.event seq (b0.getLsbD 7) kind line [])) ∧
      (b0.toNat / 32 % 4 = 1 → readReply (wireBits [b0, b1, b2, b3] ++ more) =
        .complete [b0, b1, b2, b3] (.event seq (b0.getLsbD 7) kind line [b2])) ∧
      (b0.toNat / 32 % 4 = 2 → readReply (wireBits [b0, b1, b2, b3, b4] ++ more) =
        .complete [b0, b1, b2, b3, b4] (.event seq (b0.getLsbD 7) kind line [b2, b3])))

/-- R102, R134, R139: the transmission of each kind of frame: a POLL or PROBE opens the reply window; an ADMIT takes a JOINING node to
ACTIVE and an EJECT a LEAVING node to ABSENT, each raising its condition; otherwise nothing is reported. The bit timer is the
model's count (log entry 8). -/
def Obligations.TransmissionReportsAndMovesOn : Prop :=
  ∀ (s : State) (f : TxFrame) (r : NodeRecord), s.link = .send → s.txBuffer = some f → r = s.nodes[f.dest] →
    (f.kind = .poll ∨ f.kind = .probe → exec .frameTransmitted s = .next { s with link := .wait, bitTimer := 25 }) ∧
    (f.kind = .done ∨ (f.kind = .admitFrame ∧ r.state ≠ .joining) ∨ (f.kind = .eject ∧ r.state ≠ .leaving) →
      exec .frameTransmitted s = .next { s with link := .guard, bitTimer := 25 }) ∧
    (f.kind = .admitFrame → r.state = .joining → exec .frameTransmitted s = .next { s with
      link := .guard, bitTimer := 25, nodes := s.nodes.set f.dest { r with state := .active, faults := 0 }
      raised := s.raised ++ [.nodeJoined f.dest] }) ∧
    (f.kind = .eject → r.state = .leaving → exec .frameTransmitted s = .next { s with
      link := .guard, bitTimer := 25
      nodes := s.nodes.set f.dest ⟨.absent, r.join, r.configLimit, 0, 0, 0, false, false, 0, 0⟩
      raised := s.raised ++ [.nodeLeft f.dest] })

/-- R100, R101, R103, R104, R105: a start bit in window bit time 1 to the reply wait opens the reply; in READ the contents of the
shift register (the function `State.shiftContents`) are the bytes that eight samples each have completed; a framing error sends
the Link Engine to DRAIN at the end of the byte that holds the invalid field, its bytes still in the shift register and nothing
handed on; and outside STOPPING the end of the guard returns the Link Engine to IDLE with the transmit buffer empty. The clause
on READ is about that function of the state and the samples, since the field `shiftReg` stays empty within READ, and that 1 to
7 further samples show nothing is the model's reading of R104 (log entry 10, DEDUCED). The bit timer is the model's count (log
entry 8). -/
def Obligations.LinkEngineMovesOn : Prop :=
  ∀ s : State,
    (∀ k : Nat, s.link = .wait → 1 ≤ k → k ≤ s.slotWait →
      exec (.startBit k) s = .next { s with link := .read, bitTimer := 25 + k, shiftReg := [] }) ∧
    (∀ (bytes : List Byte) (part : List Bool), s.link = .read → part.length < 8 →
      s.shiftContents (wireBits bytes ++ part) = bytes) ∧
    (∀ (ldi : List Bool) (bytes : List Byte), s.link = .read → readReply ldi = .framing bytes →
      exec (.framingError ldi) s =
        .next { s with link := .drain, bitTimer := s.bitTimer + 8 * bytes.length, shiftReg := bytes }) ∧
    (s.link = .guard → s.mode ≠ .stopping →
      exec .guardEnd s = .next { s with link := .idle, bitTimer := 0, txBuffer := none })

/-- R106, R107, R108, R109: a good reply enters an empty holding buffer, and is dropped with RX_OVERRUN if the buffer is full, the
node untouched; in either case the shift register is discarded and the guard begins. The bit timer is the model's count (log
entry 8). -/
def Obligations.GoodReplyIsHeldOrOverruns : Prop :=
  ∀ (s : State) (f : TxFrame) (slot : SlotKind) (ldi : List Bool) (bytes : List Byte) (reply : Reply),
    s.link = .read → s.txBuffer = some f → (f.kind = .poll ∧ slot = .poll ∨ f.kind = .probe ∧ slot = .probe) →
    readReply ldi = .complete bytes reply → checkPasses f.dest bytes = true →
    (s.holding = none → exec (.replyReceived ldi) s = .next { s with
      holding := some ⟨f.dest, slot, reply⟩, link := .guard, bitTimer := s.bitTimer + 8 * bytes.length, shiftReg := [] }) ∧
    (∀ h, s.holding = some h → exec (.replyReceived ldi) s = .next { s with
      raised := s.raised ++ [.rxOverrun f.dest], link := .guard, bitTimer := s.bitTimer + 8 * bytes.length
      shiftReg := [] })

/-- R103, R105, R106, R107, R135, R136: what no reply, a CRC error and a framing error do to the node of the slot. In a PROBE slot, or
for a node that is not ACTIVE, no fault is counted; below the fault limit the count rises by one; at the limit the node is lost:
its record LOST with admitted limit 0, its EDGE entries marked stale, its HELD pending entries removed, its stack entries marked
stale, its DONE frames removed, and NODE_LOST raised. A bad frame raises LINK_FAULT first. The times of the bit
timer are the model's count (log entry 8). -/
def Obligations.SlotOutcomesCountFaults : Prop :=
  ∀ (s : State) (f : TxFrame) (n : Node) (r : NodeRecord) (out : Host.Outcome State Fault Refusal) (time : Nat)
    (shift : List Byte) (raised : List LocalCondition),
    s.txBuffer = some f → f.kind = .poll ∨ f.kind = .probe → n = f.dest → r = s.nodes[n] →
    (s.link = .wait ∧ out = exec .replyWaitExpiry s ∧ time = 25 + s.slotWait ∧ shift = s.shiftReg ∧ raised = s.raised) ∨
      (∃ ldi bytes reply, s.link = .read ∧ readReply ldi = .complete bytes reply ∧ checkPasses n bytes = false ∧
        out = exec (.replyReceived ldi) s ∧ time = s.bitTimer + 8 * bytes.length ∧ shift = [] ∧
        raised = s.raised ++ [.linkFault n]) ∨
      (s.link = .drain ∧ out = exec .drainEnd s ∧ time = s.bitTimer - 8 * s.shiftReg.length + 40 ∧ shift = [] ∧
        raised = s.raised ++ [.linkFault n]) →
    (f.kind = .probe ∨ r.state ≠ .active →
      out = .next { s with link := .guard, bitTimer := time, shiftReg := shift, raised := raised }) ∧
    (f.kind = .poll → r.state = .active → r.faults + 1 < s.faultLimit →
      out = .next { s with
        link := .guard, bitTimer := time, shiftReg := shift, raised := raised
        nodes := s.nodes.set n { r with faults := r.faults + 1 } }) ∧
    (f.kind = .poll → r.state = .active → s.faultLimit ≤ r.faults + 1 →
      ∃ table : Vector (Option Entry) 32,
        out = .next { s with
          link := .guard, bitTimer := time, shiftReg := shift, raised := raised ++ [.nodeLost n]
          nodes := s.nodes.set n { r with state := .lost, admittedLimit := 0, faults := r.faults + 1 }
          table := table
          stack := s.stack.map fun e =>
            if e.entry.source = n.castSucc then { e with entry := { e.entry with stale := true } } else e
          queue := s.queue.filter fun g => !decide (g.dest = n ∧ g.body.kind = .done) } ∧
        ∀ i : Fin 32, table[i] = s.table[i].bind fun e =>
          if e.source = n.castSucc then (if e.kind = .edge then some { e with stale := true } else none) else some e)

/-- Section 6.10: the length of a slot up to its guard: 25 + k + 8 n bit times for a reply of n bytes that begins in window bit time
k, 25 + W with no reply, 25 + k + 40 for a framing error, 25 for a frame without a window. The bit timer is the model's count
of them (log entry 8). -/
def Obligations.SlotLengthFollowsTheReply : Prop :=
  ∀ (s : State) (f : TxFrame) (rest : List Instr), s.link = .send → s.txBuffer = some f →
    (f.kind ≠ .poll → f.kind ≠ .probe → s.pending = .frameTransmitted :: rest →
      ∃ t : State, Sys2Proof.core.run 1 s = .next t ∧ t.link = .guard ∧ t.bitTimer = 25) ∧
    (f.kind = .poll ∨ f.kind = .probe →
      (s.pending = .frameTransmitted :: .replyWaitExpiry :: rest →
        ∃ t : State, Sys2Proof.core.run 2 s = .next t ∧ t.link = .guard ∧ t.bitTimer = 25 + s.slotWait) ∧
      ∀ k : Nat, 1 ≤ k → k ≤ s.slotWait → ∀ (ldi : List Bool) (bytes : List Byte),
        (∀ reply, readReply ldi = .complete bytes reply →
          s.pending = .frameTransmitted :: .startBit k :: .replyReceived ldi :: rest →
          ∃ t : State, Sys2Proof.core.run 3 s = .next t ∧ t.link = .guard ∧ t.bitTimer = 25 + k + 8 * bytes.length) ∧
        (readReply ldi = .framing bytes →
          s.pending = .frameTransmitted :: .startBit k :: .framingError ldi :: .drainEnd :: rest →
          ∃ t : State, Sys2Proof.core.run 4 s = .next t ∧ t.link = .guard ∧ t.bitTimer = 25 + k + 40))

/-! ## Admission -/

/-- R122, R123, R117, R125: replies without an EVENT to decide. An IDLE from an ACTIVE node in a POLL slot puts its fault count to 0; an
IDLE or EVENT of a PROBE slot, or of a node that is not ACTIVE, changes nothing but the buffer it leaves. An EVENT with another
number than the expected one is a duplicate, which resets the fault count and may arm the burst flag, or a sequence fault,
which counts one fault, the loss of the node at the fault limit included (its work dismissed, NODE_LOST waiting), and posts
PROTOCOL_FAULT with it: dropped on a disabled line 4, merged into the pending entry of the line, or inserted. When the node is
lost, a free value says whether PROTOCOL_FAULT is posted so (R125) or waits beside NODE_LOST (R146); that it is, the order in which
the two wait, and the count of free values are the model's (log entry 25). -/
def Obligations.RepliesThatReachNoDecision : Prop :=
  ∀ (s : State) (h : ReplyRecord) (n : Node) (r : NodeRecord), s.holding = some h → s.retiring = none → n = h.node →
    r = s.nodes[n] →
    (h.slot = .poll → h.reply = .idle → r.state = .active →
      exec .admissionTake s = .next { s with holding := none, nodes := s.nodes.set n { r with faults := 0 } }) ∧
    ((∀ d, h.reply ≠ .hello d) → h.slot = .probe ∨ r.state ≠ .active →
      exec .admissionTake s = .next { s with holding := none }) ∧
    ∀ (seq : Seq) (more : Bool) (kind : EventKind) (line : Line) (payload : List Byte),
      h.slot = .poll → h.reply = .event seq more kind line payload → r.state = .active → seq ≠ r.expected →
      (seq = r.expected - 1 → r.ackValid = true →
        exec .admissionTake s = .next { s with
          holding := none, nodes := s.nodes.set n { r with faults := 0 }
          burst := if more = true ∧ s.burst ≠ .spent then .armed n else s.burst }) ∧
      (seq ≠ r.expected - 1 ∨ r.ackValid = false →
        ∃ table : Vector (Option Entry) 32,
          (∀ i : Fin 32, table[i] = s.table[i].bind fun e =>
            if s.faultLimit ≤ r.faults + 1 ∧ e.source = n.castSucc then
              (if e.kind = .edge then some { e with stale := true } else none) else some e) ∧
          ∀ (base : State) (waits : Bool) (b0 b1 : Byte),
            (waits = true ↔ s.faultLimit ≤ r.faults + 1 ∧ Config.faultPostedAtLoss s.freeCount = false) →
            base = (if s.faultLimit ≤ r.faults + 1 then
              { s with
                holding := none, table := table, raised := s.raised ++ [.nodeLost n], freeCount := s.freeCount + 1
                nodes := s.nodes.set n { r with state := .lost, admittedLimit := 0, faults := r.faults + 1 }
                stack := s.stack.map fun e =>
                  if e.entry.source = n.castSucc then { e with entry := { e.entry with stale := true } } else e
                queue := s.queue.filter fun g => !decide (g.dest = n ∧ g.body.kind = .done) }
              else { s with holding := none, nodes := s.nodes.set n { r with faults := r.faults + 1 } }) →
            (∀ k : Nat, k < 8 → (b0.getLsbD k = true ↔ n.val = k) ∧ (b1.getLsbD k = true ↔ n.val = 8 + k)) →
            (s.lineMap[15][4].enable = false → exec .admissionTake s =
              .next (if waits then { base with raised := base.raised ++ [.protocolFault n] } else base)) ∧
            (s.lineMap[15][4].enable = true → s.LinesUnique → ∀ (i : Fin 32) (e : Entry) (p0 p1 : Byte),
              base.table[i] = some e → e.source = 15 → e.line = 4 → e.payload = [p0, p1] →
              exec .admissionTake s =
                .next (if waits then { base with raised := base.raised ++ [.protocolFault n] } else { base with
                  table := base.table.set i
                    (some { e with count := min (e.count + 1) 15, payload := [p0 ||| b0, p1 ||| b1] }) })) ∧
            (s.lineMap[15][4].enable = true → (∀ e ∈ base.pendingEntries, ¬ (e.source = 15 ∧ e.line = 4)) →
              ∀ (i : Fin 32) (t : Tag), base.NextPlace i t → exec .admissionTake s =
                .next (if waits then { base with raised := base.raised ++ [.protocolFault n] } else { base with
                  table := base.table.set i (some ⟨t, 15, 4, .edge, 1, [b0, b1], false, false⟩), lastTag := t })))

/-- R124, R123: the rows of the decision table with no effect on the tables: accepted with the new-entry indication no (rows 1a, 1b,
3a, which raise PROTOCOL_FAULT, and rows 4 and 5d), or refused (rows 2c, 3c and 5b). The premises name each row by its
condition, those of the rows before it among them. -/
def Obligations.EventsWithoutEffectOnTheTables : Prop :=
  ∀ (s : State) (n : Node) (r : NodeRecord) (more : Bool) (kind : EventKind) (line : Line) (payload : List Byte)
    (c : LineConfig) (declared suits fresh stale holds capacity : Prop) (accepted refused : State),
    s.holding = some ⟨n, .poll, .event r.expected more kind line payload⟩ → s.retiring = none → r = s.nodes[n] →
    r.state = .active → c = s.lineMap[n.castSucc][line] → (declared ↔ line.val < r.declared.val) →
    (suits ↔ (kind = .pulse ↔ c.kind = .edge)) →
    (fresh ↔ ∃ e ∈ s.pendingEntries, e.source = n.castSucc ∧ e.line = line ∧ e.stale = false) →
    (stale ↔ ∃ e ∈ s.pendingEntries, e.source = n.castSucc ∧ e.line = line ∧ e.stale = true) →
    (holds ↔ ∃ e ∈ s.stack, e.entry.source = n.castSucc ∧ e.entry.line = line ∧ e.entry.stale = false ∧
      e.released = false) →
    (capacity ↔ s.poolCount < 24 ∧ s.heldCredits n < r.admittedLimit.val) →
    accepted = { s with
      holding := none
      nodes := s.nodes.set n
        { r with expected := r.expected + 1, lastAck := r.expected, ackValid := true, newEntry := false, faults := 0 }
      burst := if more = true ∧ s.burst ≠ .spent then .armed n else s.burst } →
    refused = { s with holding := none, nodes := s.nodes.set n { r with faults := 0 } } →
    (¬ declared ∨ ¬ suits ∨ (kind = .assert ∧ c.enable = true ∧ (fresh ∨ holds)) →
      exec .admissionTake s = .next { accepted with raised := s.raised ++ [.protocolFault n] }) ∧
    (declared → suits →
      (kind = .pulse ∨ kind = .assert → c.enable = false → exec .admissionTake s = .next accepted) ∧
      (kind = .release → ¬ fresh →
        (∀ e ∈ s.stack, e.entry.source = n.castSucc → e.entry.line = line → e.entry.kind = .held →
          e.entry.stale = true ∨ e.released = true) →
        exec .admissionTake s = .next accepted) ∧
      (kind = .pulse → c.enable = true → ¬ fresh → ¬ stale → ¬ capacity → exec .admissionTake s = .next refused) ∧
      (kind = .assert → c.enable = true → ¬ fresh → ¬ holds → ¬ capacity → exec .admissionTake s = .next refused) ∧
      (kind = .release → fresh → 16 ≤ s.queue.length → exec .admissionTake s = .next refused))

/-- R124, R28, R29, R34, R73, R123: the rows of the decision table with an effect: an insertion (2b, 3b) in the lowest empty slot under
the next free tag with the new-entry indication yes; a merge (2a), a withdrawal (5a) and a released mark (5c) with the
indication no. -/
def Obligations.EventsChangeTheTables : Prop :=
  ∀ (s : State) (n : Node) (r : NodeRecord) (more : Bool) (kind : EventKind) (line : Line) (payload : List Byte)
    (c : LineConfig) (accepted : Bool → State),
    s.holding = some ⟨n, .poll, .event r.expected more kind line payload⟩ → s.retiring = none → r = s.nodes[n] →
    r.state = .active → c = s.lineMap[n.castSucc][line] → line.val < r.declared.val →
    (kind = .pulse ↔ c.kind = .edge) → s.LinesUnique →
    accepted = (fun newEntry => { s with
      holding := none
      nodes := s.nodes.set n
        { r with expected := r.expected + 1, lastAck := r.expected, ackValid := true, newEntry := newEntry, faults := 0 }
      burst := if more = true ∧ s.burst ≠ .spent then .armed n else s.burst }) →
    (∀ (i : Fin 32) (e : Entry), kind = .pulse → c.enable = true → s.table[i] = some e → e.source = n.castSucc →
      e.line = line → exec .admissionTake s = .next { accepted false with
        table := s.table.set i (some { e with count := min (e.count + 1) 15, payload := payload }) }) ∧
    (∀ (i : Fin 32) (t : Tag), c.enable = true → s.NextPlace i t → s.poolCount < 24 →
      s.heldCredits n < r.admittedLimit.val →
      (kind = .pulse ∧ (∀ e ∈ s.pendingEntries, ¬ (e.source = n.castSucc ∧ e.line = line)) ∨
        kind = .assert ∧ (∀ e ∈ s.pendingEntries, e.source = n.castSucc → e.line = line → e.stale = true) ∧
          ∀ e ∈ s.stack, e.entry.source = n.castSucc → e.entry.line = line → e.entry.stale = true ∨ e.released = true) →
      exec .admissionTake s = .next { accepted true with
        table := s.table.set i (some ⟨t, n.castSucc, line, c.kind, 1, payload, false, false⟩), lastTag := t }) ∧
    (∀ (i : Fin 32) (e : Entry), kind = .release → s.table[i] = some e → e.source = n.castSucc → e.line = line →
      e.stale = false → s.queue.length < 16 → exec .admissionTake s = .next { accepted false with
        table := s.table.set i none, queue := s.queue ++ [⟨n, .done line .withdrawn⟩] }) ∧
    (∀ (below above : List StackEntry) (x : StackEntry), kind = .release →
      (∀ e ∈ s.pendingEntries, e.source = n.castSucc → e.line = line → e.stale = true) → s.stack = below ++ x :: above →
      x.entry.source = n.castSucc → x.entry.line = line → x.Holding →
      (∀ y ∈ below, ¬ (y.entry.source = n.castSucc ∧ y.entry.line = line ∧ y.Holding)) →
      exec .admissionTake s = .next { accepted false with stack := below ++ { x with released := true } :: above })

/-- R132, R133, R137: a HELLO: ignored in JOINING and LEAVING, with join no in ABSENT and LOST, and with a full queue; a join request
otherwise, which sets the record and queues the ADMIT; and the restart of an ACTIVE node, which goes to JOINING with its ADMIT
queued, or to LOST, and raises NODE_RESTARTED. -/
def Obligations.HelloJoinsOrRestarts : Prop :=
  ∀ (s : State) (n : Node) (r : NodeRecord) (slot : SlotKind) (d : Fin 9),
    s.holding = some ⟨n, slot, .hello d⟩ → s.retiring = none → r = s.nodes[n] →
    (r.state = .joining ∨ r.state = .leaving ∨ (r.state ≠ .active ∧ (r.join = false ∨ 16 ≤ s.queue.length)) →
      exec .admissionTake s = .next { s with holding := none }) ∧
    (r.state = .absent ∨ r.state = .lost → r.join = true → s.queue.length < 16 →
      exec .admissionTake s = .next { s with
        holding := none
        nodes := s.nodes.set n ⟨.joining, true, r.configLimit, r.configLimit, 0, 0, false, false, 0, d⟩
        queue := s.queue ++ [⟨n, .admitFrame r.configLimit⟩] }) ∧
    (r.state = .active → ∀ q : List OutFrame, q = s.queue.filter (fun g => !decide (g.dest = n ∧ g.body.kind = .done)) →
      ∃ table : Vector (Option Entry) 32,
        exec .admissionTake s = .next { s with
          holding := none
          nodes := s.nodes.set n (if r.join = true ∧ q.length < 16 then
            ⟨.joining, r.join, r.configLimit, r.configLimit, 0, 0, false, false, 0, d⟩
            else ⟨.lost, r.join, r.configLimit, 0, 0, 0, false, false, 0, r.declared⟩)
          queue := if r.join = true ∧ q.length < 16 then q ++ [⟨n, .admitFrame r.configLimit⟩] else q
          table := table
          stack := s.stack.map fun e =>
            if e.entry.source = n.castSucc then { e with entry := { e.entry with stale := true } } else e
          raised := s.raised ++ [.nodeRestarted n] } ∧
        ∀ i : Fin 32, table[i] = s.table[i].bind fun e =>
          if e.source = n.castSucc then (if e.kind = .edge then some { e with stale := true } else none) else some e)

/-! ## Local postings and the allocator -/

/-- R30, R144, R145: the posting of a waiting condition: dropped on a disabled line; merged into the pending entry of the line, whose
count rises and stops at 15 and whose node set gains the node's bit; or inserted with the node's bit alone. -/
def Obligations.LocalPostingMergesOrInserts : Prop :=
  ∀ (s : State) (c : LocalCondition) (line : Line) (n : Node) (b0 b1 : Byte), c ∈ s.raised → s.LinesUnique →
    (c, line) ∈ [(LocalCondition.nodeJoined n, 0), (.nodeLost n, 1), (.nodeRestarted n, 2), (.linkFault n, 3),
      (.protocolFault n, 4), (.rxOverrun n, 5), (.nodeLeft n, 7)] →
    (∀ k : Nat, k < 8 → (b0.getLsbD k = true ↔ n.val = k) ∧ (b1.getLsbD k = true ↔ n.val = 8 + k)) →
    (s.lineMap[15][line].enable = false →
      exec (.localPosting c) s = .next { s with raised := s.raised.erase c }) ∧
    (s.lineMap[15][line].enable = true → ∀ (i : Fin 32) (e : Entry) (p0 p1 : Byte), s.table[i] = some e → e.source = 15 →
      e.line = line → e.payload = [p0, p1] → exec (.localPosting c) s = .next { s with
        raised := s.raised.erase c
        table := s.table.set i (some { e with count := min (e.count + 1) 15, payload := [p0 ||| b0, p1 ||| b1] }) }) ∧
    (s.lineMap[15][line].enable = true → (∀ e ∈ s.pendingEntries, ¬ (e.source = 15 ∧ e.line = line)) →
      ∀ (i : Fin 32) (t : Tag), s.NextPlace i t → exec (.localPosting c) s = .next { s with
        raised := s.raised.erase c
        table := s.table.set i (some ⟨t, 15, line, .edge, 1, [b0, b1], false, false⟩), lastTag := t })

/-- R21, R23: an insertion takes the lowest-numbered empty slot and the first tag after the last allocated one that is not live; such
a place exists whenever a slot is empty and fewer than 63 tags are live. -/
def Obligations.InsertionTakesLowestSlotAndNextTag : Prop :=
  ∀ s : State,
    (∀ (i : Fin 32) (t : Tag), s.freeSlot = some i ∧ s.nextTag = some t ↔ s.NextPlace i t) ∧
    ((∃ i : Fin 32, s.table[i] = none) → s.liveTags.length < 63 → ∃ (i : Fin 32) (t : Tag), s.NextPlace i t) ∧
    ∀ (i : Fin 32) (t : Tag), s.NextPlace i t →
      ∀ (src : Source) (line : Line) (kind : Kind) (payload : List Byte) (repost : Bool),
      s.insertEntry src line kind payload repost =
        .ok { s with table := s.table.set i (some ⟨t, src, line, kind, 1, payload, false, repost⟩), lastTag := t }
end

