-- ==== Sys2Proof/Laws/State.lean ====
section
/-! SUPPORT. What each named update of the state leaves in each field: one lemma per field and update, all by `rfl`. -/

namespace Sys2Proof.Machine

variable (s : State)

/-! ## setLineConfig -/

@[simp] theorem State.setLineConfig_mode (src : Source) (line : Line) (c : LineConfig) : (s.setLineConfig src line c).mode = s.mode := rfl
@[simp] theorem State.setLineConfig_command (src : Source) (line : Line) (c : LineConfig) : (s.setLineConfig src line c).command = s.command := rfl
@[simp] theorem State.setLineConfig_cmdLost (src : Source) (line : Line) (c : LineConfig) : (s.setLineConfig src line c).cmdLost = s.cmdLost := rfl
@[simp] theorem State.setLineConfig_res (src : Source) (line : Line) (c : LineConfig) : (s.setLineConfig src line c).res = s.res := rfl
@[simp] theorem State.setLineConfig_arg0 (src : Source) (line : Line) (c : LineConfig) : (s.setLineConfig src line c).arg0 = s.arg0 := rfl
@[simp] theorem State.setLineConfig_arg1 (src : Source) (line : Line) (c : LineConfig) : (s.setLineConfig src line c).arg1 = s.arg1 := rfl
@[simp] theorem State.setLineConfig_arg2 (src : Source) (line : Line) (c : LineConfig) : (s.setLineConfig src line c).arg2 = s.arg2 := rfl
@[simp] theorem State.setLineConfig_arg3 (src : Source) (line : Line) (c : LineConfig) : (s.setLineConfig src line c).arg3 = s.arg3 := rfl
@[simp] theorem State.setLineConfig_window (src : Source) (line : Line) (c : LineConfig) : (s.setLineConfig src line c).window = s.window := rfl
@[simp] theorem State.setLineConfig_floor (src : Source) (line : Line) (c : LineConfig) : (s.setLineConfig src line c).floor = s.floor := rfl
@[simp] theorem State.setLineConfig_lven0 (src : Source) (line : Line) (c : LineConfig) : (s.setLineConfig src line c).lven0 = s.lven0 := rfl
@[simp] theorem State.setLineConfig_lven1 (src : Source) (line : Line) (c : LineConfig) : (s.setLineConfig src line c).lven1 = s.lven1 := rfl
@[simp] theorem State.setLineConfig_lineMap (src : Source) (line : Line) (c : LineConfig) : (s.setLineConfig src line c).lineMap = s.lineMap.set src (s.lineMap[src].set line c) := rfl
@[simp] theorem State.setLineConfig_table (src : Source) (line : Line) (c : LineConfig) : (s.setLineConfig src line c).table = s.table := rfl
@[simp] theorem State.setLineConfig_lastTag (src : Source) (line : Line) (c : LineConfig) : (s.setLineConfig src line c).lastTag = s.lastTag := rfl
@[simp] theorem State.setLineConfig_rotation (src : Source) (line : Line) (c : LineConfig) : (s.setLineConfig src line c).rotation = s.rotation := rfl
@[simp] theorem State.setLineConfig_stack (src : Source) (line : Line) (c : LineConfig) : (s.setLineConfig src line c).stack = s.stack := rfl
@[simp] theorem State.setLineConfig_queue (src : Source) (line : Line) (c : LineConfig) : (s.setLineConfig src line c).queue = s.queue := rfl
@[simp] theorem State.setLineConfig_nodes (src : Source) (line : Line) (c : LineConfig) : (s.setLineConfig src line c).nodes = s.nodes := rfl
@[simp] theorem State.setLineConfig_div (src : Source) (line : Line) (c : LineConfig) : (s.setLineConfig src line c).div = s.div := rfl
@[simp] theorem State.setLineConfig_replyWait (src : Source) (line : Line) (c : LineConfig) : (s.setLineConfig src line c).replyWait = s.replyWait := rfl
@[simp] theorem State.setLineConfig_faultLimit (src : Source) (line : Line) (c : LineConfig) : (s.setLineConfig src line c).faultLimit = s.faultLimit := rfl
@[simp] theorem State.setLineConfig_ring (src : Source) (line : Line) (c : LineConfig) : (s.setLineConfig src line c).ring = s.ring := rfl
@[simp] theorem State.setLineConfig_discovery (src : Source) (line : Line) (c : LineConfig) : (s.setLineConfig src line c).discovery = s.discovery := rfl
@[simp] theorem State.setLineConfig_burst (src : Source) (line : Line) (c : LineConfig) : (s.setLineConfig src line c).burst = s.burst := rfl
@[simp] theorem State.setLineConfig_outCount (src : Source) (line : Line) (c : LineConfig) : (s.setLineConfig src line c).outCount = s.outCount := rfl
@[simp] theorem State.setLineConfig_link (src : Source) (line : Line) (c : LineConfig) : (s.setLineConfig src line c).link = s.link := rfl
@[simp] theorem State.setLineConfig_txBuffer (src : Source) (line : Line) (c : LineConfig) : (s.setLineConfig src line c).txBuffer = s.txBuffer := rfl
@[simp] theorem State.setLineConfig_shiftReg (src : Source) (line : Line) (c : LineConfig) : (s.setLineConfig src line c).shiftReg = s.shiftReg := rfl
@[simp] theorem State.setLineConfig_holding (src : Source) (line : Line) (c : LineConfig) : (s.setLineConfig src line c).holding = s.holding := rfl
@[simp] theorem State.setLineConfig_bitTimer (src : Source) (line : Line) (c : LineConfig) : (s.setLineConfig src line c).bitTimer = s.bitTimer := rfl
@[simp] theorem State.setLineConfig_slotDiv (src : Source) (line : Line) (c : LineConfig) : (s.setLineConfig src line c).slotDiv = s.slotDiv := rfl
@[simp] theorem State.setLineConfig_slotWait (src : Source) (line : Line) (c : LineConfig) : (s.setLineConfig src line c).slotWait = s.slotWait := rfl
@[simp] theorem State.setLineConfig_readData (src : Source) (line : Line) (c : LineConfig) : (s.setLineConfig src line c).readData = s.readData := rfl
@[simp] theorem State.setLineConfig_raised (src : Source) (line : Line) (c : LineConfig) : (s.setLineConfig src line c).raised = s.raised := rfl
@[simp] theorem State.setLineConfig_freeCount (src : Source) (line : Line) (c : LineConfig) : (s.setLineConfig src line c).freeCount = s.freeCount := rfl
@[simp] theorem State.setLineConfig_pending (src : Source) (line : Line) (c : LineConfig) : (s.setLineConfig src line c).pending = s.pending := rfl

/-! ## setSlot -/

@[simp] theorem State.setSlot_mode (i : Fin 32) (e : Option Entry) : (s.setSlot i e).mode = s.mode := rfl
@[simp] theorem State.setSlot_command (i : Fin 32) (e : Option Entry) : (s.setSlot i e).command = s.command := rfl
@[simp] theorem State.setSlot_cmdLost (i : Fin 32) (e : Option Entry) : (s.setSlot i e).cmdLost = s.cmdLost := rfl
@[simp] theorem State.setSlot_res (i : Fin 32) (e : Option Entry) : (s.setSlot i e).res = s.res := rfl
@[simp] theorem State.setSlot_arg0 (i : Fin 32) (e : Option Entry) : (s.setSlot i e).arg0 = s.arg0 := rfl
@[simp] theorem State.setSlot_arg1 (i : Fin 32) (e : Option Entry) : (s.setSlot i e).arg1 = s.arg1 := rfl
@[simp] theorem State.setSlot_arg2 (i : Fin 32) (e : Option Entry) : (s.setSlot i e).arg2 = s.arg2 := rfl
@[simp] theorem State.setSlot_arg3 (i : Fin 32) (e : Option Entry) : (s.setSlot i e).arg3 = s.arg3 := rfl
@[simp] theorem State.setSlot_window (i : Fin 32) (e : Option Entry) : (s.setSlot i e).window = s.window := rfl
@[simp] theorem State.setSlot_floor (i : Fin 32) (e : Option Entry) : (s.setSlot i e).floor = s.floor := rfl
@[simp] theorem State.setSlot_lven0 (i : Fin 32) (e : Option Entry) : (s.setSlot i e).lven0 = s.lven0 := rfl
@[simp] theorem State.setSlot_lven1 (i : Fin 32) (e : Option Entry) : (s.setSlot i e).lven1 = s.lven1 := rfl
@[simp] theorem State.setSlot_lineMap (i : Fin 32) (e : Option Entry) : (s.setSlot i e).lineMap = s.lineMap := rfl
@[simp] theorem State.setSlot_table (i : Fin 32) (e : Option Entry) : (s.setSlot i e).table = s.table.set i e := rfl
@[simp] theorem State.setSlot_lastTag (i : Fin 32) (e : Option Entry) : (s.setSlot i e).lastTag = s.lastTag := rfl
@[simp] theorem State.setSlot_rotation (i : Fin 32) (e : Option Entry) : (s.setSlot i e).rotation = s.rotation := rfl
@[simp] theorem State.setSlot_stack (i : Fin 32) (e : Option Entry) : (s.setSlot i e).stack = s.stack := rfl
@[simp] theorem State.setSlot_queue (i : Fin 32) (e : Option Entry) : (s.setSlot i e).queue = s.queue := rfl
@[simp] theorem State.setSlot_nodes (i : Fin 32) (e : Option Entry) : (s.setSlot i e).nodes = s.nodes := rfl
@[simp] theorem State.setSlot_div (i : Fin 32) (e : Option Entry) : (s.setSlot i e).div = s.div := rfl
@[simp] theorem State.setSlot_replyWait (i : Fin 32) (e : Option Entry) : (s.setSlot i e).replyWait = s.replyWait := rfl
@[simp] theorem State.setSlot_faultLimit (i : Fin 32) (e : Option Entry) : (s.setSlot i e).faultLimit = s.faultLimit := rfl
@[simp] theorem State.setSlot_ring (i : Fin 32) (e : Option Entry) : (s.setSlot i e).ring = s.ring := rfl
@[simp] theorem State.setSlot_discovery (i : Fin 32) (e : Option Entry) : (s.setSlot i e).discovery = s.discovery := rfl
@[simp] theorem State.setSlot_burst (i : Fin 32) (e : Option Entry) : (s.setSlot i e).burst = s.burst := rfl
@[simp] theorem State.setSlot_outCount (i : Fin 32) (e : Option Entry) : (s.setSlot i e).outCount = s.outCount := rfl
@[simp] theorem State.setSlot_link (i : Fin 32) (e : Option Entry) : (s.setSlot i e).link = s.link := rfl
@[simp] theorem State.setSlot_txBuffer (i : Fin 32) (e : Option Entry) : (s.setSlot i e).txBuffer = s.txBuffer := rfl
@[simp] theorem State.setSlot_shiftReg (i : Fin 32) (e : Option Entry) : (s.setSlot i e).shiftReg = s.shiftReg := rfl
@[simp] theorem State.setSlot_holding (i : Fin 32) (e : Option Entry) : (s.setSlot i e).holding = s.holding := rfl
@[simp] theorem State.setSlot_bitTimer (i : Fin 32) (e : Option Entry) : (s.setSlot i e).bitTimer = s.bitTimer := rfl
@[simp] theorem State.setSlot_slotDiv (i : Fin 32) (e : Option Entry) : (s.setSlot i e).slotDiv = s.slotDiv := rfl
@[simp] theorem State.setSlot_slotWait (i : Fin 32) (e : Option Entry) : (s.setSlot i e).slotWait = s.slotWait := rfl
@[simp] theorem State.setSlot_readData (i : Fin 32) (e : Option Entry) : (s.setSlot i e).readData = s.readData := rfl
@[simp] theorem State.setSlot_raised (i : Fin 32) (e : Option Entry) : (s.setSlot i e).raised = s.raised := rfl
@[simp] theorem State.setSlot_freeCount (i : Fin 32) (e : Option Entry) : (s.setSlot i e).freeCount = s.freeCount := rfl
@[simp] theorem State.setSlot_pending (i : Fin 32) (e : Option Entry) : (s.setSlot i e).pending = s.pending := rfl

/-! ## mapPending -/

@[simp] theorem State.mapPending_mode (f : Entry → Option Entry) : (s.mapPending f).mode = s.mode := rfl
@[simp] theorem State.mapPending_command (f : Entry → Option Entry) : (s.mapPending f).command = s.command := rfl
@[simp] theorem State.mapPending_cmdLost (f : Entry → Option Entry) : (s.mapPending f).cmdLost = s.cmdLost := rfl
@[simp] theorem State.mapPending_res (f : Entry → Option Entry) : (s.mapPending f).res = s.res := rfl
@[simp] theorem State.mapPending_arg0 (f : Entry → Option Entry) : (s.mapPending f).arg0 = s.arg0 := rfl
@[simp] theorem State.mapPending_arg1 (f : Entry → Option Entry) : (s.mapPending f).arg1 = s.arg1 := rfl
@[simp] theorem State.mapPending_arg2 (f : Entry → Option Entry) : (s.mapPending f).arg2 = s.arg2 := rfl
@[simp] theorem State.mapPending_arg3 (f : Entry → Option Entry) : (s.mapPending f).arg3 = s.arg3 := rfl
@[simp] theorem State.mapPending_window (f : Entry → Option Entry) : (s.mapPending f).window = s.window := rfl
@[simp] theorem State.mapPending_floor (f : Entry → Option Entry) : (s.mapPending f).floor = s.floor := rfl
@[simp] theorem State.mapPending_lven0 (f : Entry → Option Entry) : (s.mapPending f).lven0 = s.lven0 := rfl
@[simp] theorem State.mapPending_lven1 (f : Entry → Option Entry) : (s.mapPending f).lven1 = s.lven1 := rfl
@[simp] theorem State.mapPending_lineMap (f : Entry → Option Entry) : (s.mapPending f).lineMap = s.lineMap := rfl
@[simp] theorem State.mapPending_table (f : Entry → Option Entry) : (s.mapPending f).table = mapSlots (fun o => o.bind f) s.table := rfl
@[simp] theorem State.mapPending_lastTag (f : Entry → Option Entry) : (s.mapPending f).lastTag = s.lastTag := rfl
@[simp] theorem State.mapPending_rotation (f : Entry → Option Entry) : (s.mapPending f).rotation = s.rotation := rfl
@[simp] theorem State.mapPending_stack (f : Entry → Option Entry) : (s.mapPending f).stack = s.stack := rfl
@[simp] theorem State.mapPending_queue (f : Entry → Option Entry) : (s.mapPending f).queue = s.queue := rfl
@[simp] theorem State.mapPending_nodes (f : Entry → Option Entry) : (s.mapPending f).nodes = s.nodes := rfl
@[simp] theorem State.mapPending_div (f : Entry → Option Entry) : (s.mapPending f).div = s.div := rfl
@[simp] theorem State.mapPending_replyWait (f : Entry → Option Entry) : (s.mapPending f).replyWait = s.replyWait := rfl
@[simp] theorem State.mapPending_faultLimit (f : Entry → Option Entry) : (s.mapPending f).faultLimit = s.faultLimit := rfl
@[simp] theorem State.mapPending_ring (f : Entry → Option Entry) : (s.mapPending f).ring = s.ring := rfl
@[simp] theorem State.mapPending_discovery (f : Entry → Option Entry) : (s.mapPending f).discovery = s.discovery := rfl
@[simp] theorem State.mapPending_burst (f : Entry → Option Entry) : (s.mapPending f).burst = s.burst := rfl
@[simp] theorem State.mapPending_outCount (f : Entry → Option Entry) : (s.mapPending f).outCount = s.outCount := rfl
@[simp] theorem State.mapPending_link (f : Entry → Option Entry) : (s.mapPending f).link = s.link := rfl
@[simp] theorem State.mapPending_txBuffer (f : Entry → Option Entry) : (s.mapPending f).txBuffer = s.txBuffer := rfl
@[simp] theorem State.mapPending_shiftReg (f : Entry → Option Entry) : (s.mapPending f).shiftReg = s.shiftReg := rfl
@[simp] theorem State.mapPending_holding (f : Entry → Option Entry) : (s.mapPending f).holding = s.holding := rfl
@[simp] theorem State.mapPending_bitTimer (f : Entry → Option Entry) : (s.mapPending f).bitTimer = s.bitTimer := rfl
@[simp] theorem State.mapPending_slotDiv (f : Entry → Option Entry) : (s.mapPending f).slotDiv = s.slotDiv := rfl
@[simp] theorem State.mapPending_slotWait (f : Entry → Option Entry) : (s.mapPending f).slotWait = s.slotWait := rfl
@[simp] theorem State.mapPending_readData (f : Entry → Option Entry) : (s.mapPending f).readData = s.readData := rfl
@[simp] theorem State.mapPending_raised (f : Entry → Option Entry) : (s.mapPending f).raised = s.raised := rfl
@[simp] theorem State.mapPending_freeCount (f : Entry → Option Entry) : (s.mapPending f).freeCount = s.freeCount := rfl
@[simp] theorem State.mapPending_pending (f : Entry → Option Entry) : (s.mapPending f).pending = s.pending := rfl

/-! ## append -/

@[simp] theorem State.append_mode (dest : Node) (body : OutBody) : (s.append dest body).mode = s.mode := rfl
@[simp] theorem State.append_command (dest : Node) (body : OutBody) : (s.append dest body).command = s.command := rfl
@[simp] theorem State.append_cmdLost (dest : Node) (body : OutBody) : (s.append dest body).cmdLost = s.cmdLost := rfl
@[simp] theorem State.append_res (dest : Node) (body : OutBody) : (s.append dest body).res = s.res := rfl
@[simp] theorem State.append_arg0 (dest : Node) (body : OutBody) : (s.append dest body).arg0 = s.arg0 := rfl
@[simp] theorem State.append_arg1 (dest : Node) (body : OutBody) : (s.append dest body).arg1 = s.arg1 := rfl
@[simp] theorem State.append_arg2 (dest : Node) (body : OutBody) : (s.append dest body).arg2 = s.arg2 := rfl
@[simp] theorem State.append_arg3 (dest : Node) (body : OutBody) : (s.append dest body).arg3 = s.arg3 := rfl
@[simp] theorem State.append_window (dest : Node) (body : OutBody) : (s.append dest body).window = s.window := rfl
@[simp] theorem State.append_floor (dest : Node) (body : OutBody) : (s.append dest body).floor = s.floor := rfl
@[simp] theorem State.append_lven0 (dest : Node) (body : OutBody) : (s.append dest body).lven0 = s.lven0 := rfl
@[simp] theorem State.append_lven1 (dest : Node) (body : OutBody) : (s.append dest body).lven1 = s.lven1 := rfl
@[simp] theorem State.append_lineMap (dest : Node) (body : OutBody) : (s.append dest body).lineMap = s.lineMap := rfl
@[simp] theorem State.append_table (dest : Node) (body : OutBody) : (s.append dest body).table = s.table := rfl
@[simp] theorem State.append_lastTag (dest : Node) (body : OutBody) : (s.append dest body).lastTag = s.lastTag := rfl
@[simp] theorem State.append_rotation (dest : Node) (body : OutBody) : (s.append dest body).rotation = s.rotation := rfl
@[simp] theorem State.append_stack (dest : Node) (body : OutBody) : (s.append dest body).stack = s.stack := rfl
@[simp] theorem State.append_queue (dest : Node) (body : OutBody) : (s.append dest body).queue = s.queue ++ [(⟨dest, body⟩ : OutFrame)] := rfl
@[simp] theorem State.append_nodes (dest : Node) (body : OutBody) : (s.append dest body).nodes = s.nodes := rfl
@[simp] theorem State.append_div (dest : Node) (body : OutBody) : (s.append dest body).div = s.div := rfl
@[simp] theorem State.append_replyWait (dest : Node) (body : OutBody) : (s.append dest body).replyWait = s.replyWait := rfl
@[simp] theorem State.append_faultLimit (dest : Node) (body : OutBody) : (s.append dest body).faultLimit = s.faultLimit := rfl
@[simp] theorem State.append_ring (dest : Node) (body : OutBody) : (s.append dest body).ring = s.ring := rfl
@[simp] theorem State.append_discovery (dest : Node) (body : OutBody) : (s.append dest body).discovery = s.discovery := rfl
@[simp] theorem State.append_burst (dest : Node) (body : OutBody) : (s.append dest body).burst = s.burst := rfl
@[simp] theorem State.append_outCount (dest : Node) (body : OutBody) : (s.append dest body).outCount = s.outCount := rfl
@[simp] theorem State.append_link (dest : Node) (body : OutBody) : (s.append dest body).link = s.link := rfl
@[simp] theorem State.append_txBuffer (dest : Node) (body : OutBody) : (s.append dest body).txBuffer = s.txBuffer := rfl
@[simp] theorem State.append_shiftReg (dest : Node) (body : OutBody) : (s.append dest body).shiftReg = s.shiftReg := rfl
@[simp] theorem State.append_holding (dest : Node) (body : OutBody) : (s.append dest body).holding = s.holding := rfl
@[simp] theorem State.append_bitTimer (dest : Node) (body : OutBody) : (s.append dest body).bitTimer = s.bitTimer := rfl
@[simp] theorem State.append_slotDiv (dest : Node) (body : OutBody) : (s.append dest body).slotDiv = s.slotDiv := rfl
@[simp] theorem State.append_slotWait (dest : Node) (body : OutBody) : (s.append dest body).slotWait = s.slotWait := rfl
@[simp] theorem State.append_readData (dest : Node) (body : OutBody) : (s.append dest body).readData = s.readData := rfl
@[simp] theorem State.append_raised (dest : Node) (body : OutBody) : (s.append dest body).raised = s.raised := rfl
@[simp] theorem State.append_freeCount (dest : Node) (body : OutBody) : (s.append dest body).freeCount = s.freeCount := rfl
@[simp] theorem State.append_pending (dest : Node) (body : OutBody) : (s.append dest body).pending = s.pending := rfl

/-! ## removeDones -/

@[simp] theorem State.removeDones_mode (n : Node) : (s.removeDones n).mode = s.mode := rfl
@[simp] theorem State.removeDones_command (n : Node) : (s.removeDones n).command = s.command := rfl
@[simp] theorem State.removeDones_cmdLost (n : Node) : (s.removeDones n).cmdLost = s.cmdLost := rfl
@[simp] theorem State.removeDones_res (n : Node) : (s.removeDones n).res = s.res := rfl
@[simp] theorem State.removeDones_arg0 (n : Node) : (s.removeDones n).arg0 = s.arg0 := rfl
@[simp] theorem State.removeDones_arg1 (n : Node) : (s.removeDones n).arg1 = s.arg1 := rfl
@[simp] theorem State.removeDones_arg2 (n : Node) : (s.removeDones n).arg2 = s.arg2 := rfl
@[simp] theorem State.removeDones_arg3 (n : Node) : (s.removeDones n).arg3 = s.arg3 := rfl
@[simp] theorem State.removeDones_window (n : Node) : (s.removeDones n).window = s.window := rfl
@[simp] theorem State.removeDones_floor (n : Node) : (s.removeDones n).floor = s.floor := rfl
@[simp] theorem State.removeDones_lven0 (n : Node) : (s.removeDones n).lven0 = s.lven0 := rfl
@[simp] theorem State.removeDones_lven1 (n : Node) : (s.removeDones n).lven1 = s.lven1 := rfl
@[simp] theorem State.removeDones_lineMap (n : Node) : (s.removeDones n).lineMap = s.lineMap := rfl
@[simp] theorem State.removeDones_table (n : Node) : (s.removeDones n).table = s.table := rfl
@[simp] theorem State.removeDones_lastTag (n : Node) : (s.removeDones n).lastTag = s.lastTag := rfl
@[simp] theorem State.removeDones_rotation (n : Node) : (s.removeDones n).rotation = s.rotation := rfl
@[simp] theorem State.removeDones_stack (n : Node) : (s.removeDones n).stack = s.stack := rfl
@[simp] theorem State.removeDones_queue (n : Node) : (s.removeDones n).queue = s.queue.filter fun f => !f.doneFor n := rfl
@[simp] theorem State.removeDones_nodes (n : Node) : (s.removeDones n).nodes = s.nodes := rfl
@[simp] theorem State.removeDones_div (n : Node) : (s.removeDones n).div = s.div := rfl
@[simp] theorem State.removeDones_replyWait (n : Node) : (s.removeDones n).replyWait = s.replyWait := rfl
@[simp] theorem State.removeDones_faultLimit (n : Node) : (s.removeDones n).faultLimit = s.faultLimit := rfl
@[simp] theorem State.removeDones_ring (n : Node) : (s.removeDones n).ring = s.ring := rfl
@[simp] theorem State.removeDones_discovery (n : Node) : (s.removeDones n).discovery = s.discovery := rfl
@[simp] theorem State.removeDones_burst (n : Node) : (s.removeDones n).burst = s.burst := rfl
@[simp] theorem State.removeDones_outCount (n : Node) : (s.removeDones n).outCount = s.outCount := rfl
@[simp] theorem State.removeDones_link (n : Node) : (s.removeDones n).link = s.link := rfl
@[simp] theorem State.removeDones_txBuffer (n : Node) : (s.removeDones n).txBuffer = s.txBuffer := rfl
@[simp] theorem State.removeDones_shiftReg (n : Node) : (s.removeDones n).shiftReg = s.shiftReg := rfl
@[simp] theorem State.removeDones_holding (n : Node) : (s.removeDones n).holding = s.holding := rfl
@[simp] theorem State.removeDones_bitTimer (n : Node) : (s.removeDones n).bitTimer = s.bitTimer := rfl
@[simp] theorem State.removeDones_slotDiv (n : Node) : (s.removeDones n).slotDiv = s.slotDiv := rfl
@[simp] theorem State.removeDones_slotWait (n : Node) : (s.removeDones n).slotWait = s.slotWait := rfl
@[simp] theorem State.removeDones_readData (n : Node) : (s.removeDones n).readData = s.readData := rfl
@[simp] theorem State.removeDones_raised (n : Node) : (s.removeDones n).raised = s.raised := rfl
@[simp] theorem State.removeDones_freeCount (n : Node) : (s.removeDones n).freeCount = s.freeCount := rfl
@[simp] theorem State.removeDones_pending (n : Node) : (s.removeDones n).pending = s.pending := rfl

/-! ## push -/

@[simp] theorem State.push_mode (e : Entry) (level : Level) : (s.push e level).mode = s.mode := rfl
@[simp] theorem State.push_command (e : Entry) (level : Level) : (s.push e level).command = s.command := rfl
@[simp] theorem State.push_cmdLost (e : Entry) (level : Level) : (s.push e level).cmdLost = s.cmdLost := rfl
@[simp] theorem State.push_res (e : Entry) (level : Level) : (s.push e level).res = s.res := rfl
@[simp] theorem State.push_arg0 (e : Entry) (level : Level) : (s.push e level).arg0 = s.arg0 := rfl
@[simp] theorem State.push_arg1 (e : Entry) (level : Level) : (s.push e level).arg1 = s.arg1 := rfl
@[simp] theorem State.push_arg2 (e : Entry) (level : Level) : (s.push e level).arg2 = s.arg2 := rfl
@[simp] theorem State.push_arg3 (e : Entry) (level : Level) : (s.push e level).arg3 = s.arg3 := rfl
@[simp] theorem State.push_window (e : Entry) (level : Level) : (s.push e level).window = s.window := rfl
@[simp] theorem State.push_floor (e : Entry) (level : Level) : (s.push e level).floor = s.floor := rfl
@[simp] theorem State.push_lven0 (e : Entry) (level : Level) : (s.push e level).lven0 = s.lven0 := rfl
@[simp] theorem State.push_lven1 (e : Entry) (level : Level) : (s.push e level).lven1 = s.lven1 := rfl
@[simp] theorem State.push_lineMap (e : Entry) (level : Level) : (s.push e level).lineMap = s.lineMap := rfl
@[simp] theorem State.push_table (e : Entry) (level : Level) : (s.push e level).table = s.table := rfl
@[simp] theorem State.push_lastTag (e : Entry) (level : Level) : (s.push e level).lastTag = s.lastTag := rfl
@[simp] theorem State.push_rotation (e : Entry) (level : Level) : (s.push e level).rotation = s.rotation := rfl
@[simp] theorem State.push_stack (e : Entry) (level : Level) : (s.push e level).stack = s.stack ++ [{ entry := e, level, released := false }] := rfl
@[simp] theorem State.push_queue (e : Entry) (level : Level) : (s.push e level).queue = s.queue := rfl
@[simp] theorem State.push_nodes (e : Entry) (level : Level) : (s.push e level).nodes = s.nodes := rfl
@[simp] theorem State.push_div (e : Entry) (level : Level) : (s.push e level).div = s.div := rfl
@[simp] theorem State.push_replyWait (e : Entry) (level : Level) : (s.push e level).replyWait = s.replyWait := rfl
@[simp] theorem State.push_faultLimit (e : Entry) (level : Level) : (s.push e level).faultLimit = s.faultLimit := rfl
@[simp] theorem State.push_ring (e : Entry) (level : Level) : (s.push e level).ring = s.ring := rfl
@[simp] theorem State.push_discovery (e : Entry) (level : Level) : (s.push e level).discovery = s.discovery := rfl
@[simp] theorem State.push_burst (e : Entry) (level : Level) : (s.push e level).burst = s.burst := rfl
@[simp] theorem State.push_outCount (e : Entry) (level : Level) : (s.push e level).outCount = s.outCount := rfl
@[simp] theorem State.push_link (e : Entry) (level : Level) : (s.push e level).link = s.link := rfl
@[simp] theorem State.push_txBuffer (e : Entry) (level : Level) : (s.push e level).txBuffer = s.txBuffer := rfl
@[simp] theorem State.push_shiftReg (e : Entry) (level : Level) : (s.push e level).shiftReg = s.shiftReg := rfl
@[simp] theorem State.push_holding (e : Entry) (level : Level) : (s.push e level).holding = s.holding := rfl
@[simp] theorem State.push_bitTimer (e : Entry) (level : Level) : (s.push e level).bitTimer = s.bitTimer := rfl
@[simp] theorem State.push_slotDiv (e : Entry) (level : Level) : (s.push e level).slotDiv = s.slotDiv := rfl
@[simp] theorem State.push_slotWait (e : Entry) (level : Level) : (s.push e level).slotWait = s.slotWait := rfl
@[simp] theorem State.push_readData (e : Entry) (level : Level) : (s.push e level).readData = s.readData := rfl
@[simp] theorem State.push_raised (e : Entry) (level : Level) : (s.push e level).raised = s.raised := rfl
@[simp] theorem State.push_freeCount (e : Entry) (level : Level) : (s.push e level).freeCount = s.freeCount := rfl
@[simp] theorem State.push_pending (e : Entry) (level : Level) : (s.push e level).pending = s.pending := rfl

/-! ## removeStacked -/

@[simp] theorem State.removeStacked_mode (t : Tag) : (s.removeStacked t).mode = s.mode := rfl
@[simp] theorem State.removeStacked_command (t : Tag) : (s.removeStacked t).command = s.command := rfl
@[simp] theorem State.removeStacked_cmdLost (t : Tag) : (s.removeStacked t).cmdLost = s.cmdLost := rfl
@[simp] theorem State.removeStacked_res (t : Tag) : (s.removeStacked t).res = s.res := rfl
@[simp] theorem State.removeStacked_arg0 (t : Tag) : (s.removeStacked t).arg0 = s.arg0 := rfl
@[simp] theorem State.removeStacked_arg1 (t : Tag) : (s.removeStacked t).arg1 = s.arg1 := rfl
@[simp] theorem State.removeStacked_arg2 (t : Tag) : (s.removeStacked t).arg2 = s.arg2 := rfl
@[simp] theorem State.removeStacked_arg3 (t : Tag) : (s.removeStacked t).arg3 = s.arg3 := rfl
@[simp] theorem State.removeStacked_window (t : Tag) : (s.removeStacked t).window = s.window := rfl
@[simp] theorem State.removeStacked_floor (t : Tag) : (s.removeStacked t).floor = s.floor := rfl
@[simp] theorem State.removeStacked_lven0 (t : Tag) : (s.removeStacked t).lven0 = s.lven0 := rfl
@[simp] theorem State.removeStacked_lven1 (t : Tag) : (s.removeStacked t).lven1 = s.lven1 := rfl
@[simp] theorem State.removeStacked_lineMap (t : Tag) : (s.removeStacked t).lineMap = s.lineMap := rfl
@[simp] theorem State.removeStacked_table (t : Tag) : (s.removeStacked t).table = s.table := rfl
@[simp] theorem State.removeStacked_lastTag (t : Tag) : (s.removeStacked t).lastTag = s.lastTag := rfl
@[simp] theorem State.removeStacked_rotation (t : Tag) : (s.removeStacked t).rotation = s.rotation := rfl
@[simp] theorem State.removeStacked_stack (t : Tag) : (s.removeStacked t).stack = s.stack.eraseP fun e => decide (e.entry.tag = t) := rfl
@[simp] theorem State.removeStacked_queue (t : Tag) : (s.removeStacked t).queue = s.queue := rfl
@[simp] theorem State.removeStacked_nodes (t : Tag) : (s.removeStacked t).nodes = s.nodes := rfl
@[simp] theorem State.removeStacked_div (t : Tag) : (s.removeStacked t).div = s.div := rfl
@[simp] theorem State.removeStacked_replyWait (t : Tag) : (s.removeStacked t).replyWait = s.replyWait := rfl
@[simp] theorem State.removeStacked_faultLimit (t : Tag) : (s.removeStacked t).faultLimit = s.faultLimit := rfl
@[simp] theorem State.removeStacked_ring (t : Tag) : (s.removeStacked t).ring = s.ring := rfl
@[simp] theorem State.removeStacked_discovery (t : Tag) : (s.removeStacked t).discovery = s.discovery := rfl
@[simp] theorem State.removeStacked_burst (t : Tag) : (s.removeStacked t).burst = s.burst := rfl
@[simp] theorem State.removeStacked_outCount (t : Tag) : (s.removeStacked t).outCount = s.outCount := rfl
@[simp] theorem State.removeStacked_link (t : Tag) : (s.removeStacked t).link = s.link := rfl
@[simp] theorem State.removeStacked_txBuffer (t : Tag) : (s.removeStacked t).txBuffer = s.txBuffer := rfl
@[simp] theorem State.removeStacked_shiftReg (t : Tag) : (s.removeStacked t).shiftReg = s.shiftReg := rfl
@[simp] theorem State.removeStacked_holding (t : Tag) : (s.removeStacked t).holding = s.holding := rfl
@[simp] theorem State.removeStacked_bitTimer (t : Tag) : (s.removeStacked t).bitTimer = s.bitTimer := rfl
@[simp] theorem State.removeStacked_slotDiv (t : Tag) : (s.removeStacked t).slotDiv = s.slotDiv := rfl
@[simp] theorem State.removeStacked_slotWait (t : Tag) : (s.removeStacked t).slotWait = s.slotWait := rfl
@[simp] theorem State.removeStacked_readData (t : Tag) : (s.removeStacked t).readData = s.readData := rfl
@[simp] theorem State.removeStacked_raised (t : Tag) : (s.removeStacked t).raised = s.raised := rfl
@[simp] theorem State.removeStacked_freeCount (t : Tag) : (s.removeStacked t).freeCount = s.freeCount := rfl
@[simp] theorem State.removeStacked_pending (t : Tag) : (s.removeStacked t).pending = s.pending := rfl

/-! ## markStacked -/

@[simp] theorem State.markStacked_mode (n : Node) : (s.markStacked n).mode = s.mode := rfl
@[simp] theorem State.markStacked_command (n : Node) : (s.markStacked n).command = s.command := rfl
@[simp] theorem State.markStacked_cmdLost (n : Node) : (s.markStacked n).cmdLost = s.cmdLost := rfl
@[simp] theorem State.markStacked_res (n : Node) : (s.markStacked n).res = s.res := rfl
@[simp] theorem State.markStacked_arg0 (n : Node) : (s.markStacked n).arg0 = s.arg0 := rfl
@[simp] theorem State.markStacked_arg1 (n : Node) : (s.markStacked n).arg1 = s.arg1 := rfl
@[simp] theorem State.markStacked_arg2 (n : Node) : (s.markStacked n).arg2 = s.arg2 := rfl
@[simp] theorem State.markStacked_arg3 (n : Node) : (s.markStacked n).arg3 = s.arg3 := rfl
@[simp] theorem State.markStacked_window (n : Node) : (s.markStacked n).window = s.window := rfl
@[simp] theorem State.markStacked_floor (n : Node) : (s.markStacked n).floor = s.floor := rfl
@[simp] theorem State.markStacked_lven0 (n : Node) : (s.markStacked n).lven0 = s.lven0 := rfl
@[simp] theorem State.markStacked_lven1 (n : Node) : (s.markStacked n).lven1 = s.lven1 := rfl
@[simp] theorem State.markStacked_lineMap (n : Node) : (s.markStacked n).lineMap = s.lineMap := rfl
@[simp] theorem State.markStacked_table (n : Node) : (s.markStacked n).table = s.table := rfl
@[simp] theorem State.markStacked_lastTag (n : Node) : (s.markStacked n).lastTag = s.lastTag := rfl
@[simp] theorem State.markStacked_rotation (n : Node) : (s.markStacked n).rotation = s.rotation := rfl
@[simp] theorem State.markStacked_stack (n : Node) : (s.markStacked n).stack = s.stack.map fun e => if e.entry.ofNode n then { e with entry := e.entry.markStale } else e := rfl
@[simp] theorem State.markStacked_queue (n : Node) : (s.markStacked n).queue = s.queue := rfl
@[simp] theorem State.markStacked_nodes (n : Node) : (s.markStacked n).nodes = s.nodes := rfl
@[simp] theorem State.markStacked_div (n : Node) : (s.markStacked n).div = s.div := rfl
@[simp] theorem State.markStacked_replyWait (n : Node) : (s.markStacked n).replyWait = s.replyWait := rfl
@[simp] theorem State.markStacked_faultLimit (n : Node) : (s.markStacked n).faultLimit = s.faultLimit := rfl
@[simp] theorem State.markStacked_ring (n : Node) : (s.markStacked n).ring = s.ring := rfl
@[simp] theorem State.markStacked_discovery (n : Node) : (s.markStacked n).discovery = s.discovery := rfl
@[simp] theorem State.markStacked_burst (n : Node) : (s.markStacked n).burst = s.burst := rfl
@[simp] theorem State.markStacked_outCount (n : Node) : (s.markStacked n).outCount = s.outCount := rfl
@[simp] theorem State.markStacked_link (n : Node) : (s.markStacked n).link = s.link := rfl
@[simp] theorem State.markStacked_txBuffer (n : Node) : (s.markStacked n).txBuffer = s.txBuffer := rfl
@[simp] theorem State.markStacked_shiftReg (n : Node) : (s.markStacked n).shiftReg = s.shiftReg := rfl
@[simp] theorem State.markStacked_holding (n : Node) : (s.markStacked n).holding = s.holding := rfl
@[simp] theorem State.markStacked_bitTimer (n : Node) : (s.markStacked n).bitTimer = s.bitTimer := rfl
@[simp] theorem State.markStacked_slotDiv (n : Node) : (s.markStacked n).slotDiv = s.slotDiv := rfl
@[simp] theorem State.markStacked_slotWait (n : Node) : (s.markStacked n).slotWait = s.slotWait := rfl
@[simp] theorem State.markStacked_readData (n : Node) : (s.markStacked n).readData = s.readData := rfl
@[simp] theorem State.markStacked_raised (n : Node) : (s.markStacked n).raised = s.raised := rfl
@[simp] theorem State.markStacked_freeCount (n : Node) : (s.markStacked n).freeCount = s.freeCount := rfl
@[simp] theorem State.markStacked_pending (n : Node) : (s.markStacked n).pending = s.pending := rfl

/-! ## setNode -/

@[simp] theorem State.setNode_mode (n : Node) (r : NodeRecord) : (s.setNode n r).mode = s.mode := rfl
@[simp] theorem State.setNode_command (n : Node) (r : NodeRecord) : (s.setNode n r).command = s.command := rfl
@[simp] theorem State.setNode_cmdLost (n : Node) (r : NodeRecord) : (s.setNode n r).cmdLost = s.cmdLost := rfl
@[simp] theorem State.setNode_res (n : Node) (r : NodeRecord) : (s.setNode n r).res = s.res := rfl
@[simp] theorem State.setNode_arg0 (n : Node) (r : NodeRecord) : (s.setNode n r).arg0 = s.arg0 := rfl
@[simp] theorem State.setNode_arg1 (n : Node) (r : NodeRecord) : (s.setNode n r).arg1 = s.arg1 := rfl
@[simp] theorem State.setNode_arg2 (n : Node) (r : NodeRecord) : (s.setNode n r).arg2 = s.arg2 := rfl
@[simp] theorem State.setNode_arg3 (n : Node) (r : NodeRecord) : (s.setNode n r).arg3 = s.arg3 := rfl
@[simp] theorem State.setNode_window (n : Node) (r : NodeRecord) : (s.setNode n r).window = s.window := rfl
@[simp] theorem State.setNode_floor (n : Node) (r : NodeRecord) : (s.setNode n r).floor = s.floor := rfl
@[simp] theorem State.setNode_lven0 (n : Node) (r : NodeRecord) : (s.setNode n r).lven0 = s.lven0 := rfl
@[simp] theorem State.setNode_lven1 (n : Node) (r : NodeRecord) : (s.setNode n r).lven1 = s.lven1 := rfl
@[simp] theorem State.setNode_lineMap (n : Node) (r : NodeRecord) : (s.setNode n r).lineMap = s.lineMap := rfl
@[simp] theorem State.setNode_table (n : Node) (r : NodeRecord) : (s.setNode n r).table = s.table := rfl
@[simp] theorem State.setNode_lastTag (n : Node) (r : NodeRecord) : (s.setNode n r).lastTag = s.lastTag := rfl
@[simp] theorem State.setNode_rotation (n : Node) (r : NodeRecord) : (s.setNode n r).rotation = s.rotation := rfl
@[simp] theorem State.setNode_stack (n : Node) (r : NodeRecord) : (s.setNode n r).stack = s.stack := rfl
@[simp] theorem State.setNode_queue (n : Node) (r : NodeRecord) : (s.setNode n r).queue = s.queue := rfl
@[simp] theorem State.setNode_nodes (n : Node) (r : NodeRecord) : (s.setNode n r).nodes = s.nodes.set n r := rfl
@[simp] theorem State.setNode_div (n : Node) (r : NodeRecord) : (s.setNode n r).div = s.div := rfl
@[simp] theorem State.setNode_replyWait (n : Node) (r : NodeRecord) : (s.setNode n r).replyWait = s.replyWait := rfl
@[simp] theorem State.setNode_faultLimit (n : Node) (r : NodeRecord) : (s.setNode n r).faultLimit = s.faultLimit := rfl
@[simp] theorem State.setNode_ring (n : Node) (r : NodeRecord) : (s.setNode n r).ring = s.ring := rfl
@[simp] theorem State.setNode_discovery (n : Node) (r : NodeRecord) : (s.setNode n r).discovery = s.discovery := rfl
@[simp] theorem State.setNode_burst (n : Node) (r : NodeRecord) : (s.setNode n r).burst = s.burst := rfl
@[simp] theorem State.setNode_outCount (n : Node) (r : NodeRecord) : (s.setNode n r).outCount = s.outCount := rfl
@[simp] theorem State.setNode_link (n : Node) (r : NodeRecord) : (s.setNode n r).link = s.link := rfl
@[simp] theorem State.setNode_txBuffer (n : Node) (r : NodeRecord) : (s.setNode n r).txBuffer = s.txBuffer := rfl
@[simp] theorem State.setNode_shiftReg (n : Node) (r : NodeRecord) : (s.setNode n r).shiftReg = s.shiftReg := rfl
@[simp] theorem State.setNode_holding (n : Node) (r : NodeRecord) : (s.setNode n r).holding = s.holding := rfl
@[simp] theorem State.setNode_bitTimer (n : Node) (r : NodeRecord) : (s.setNode n r).bitTimer = s.bitTimer := rfl
@[simp] theorem State.setNode_slotDiv (n : Node) (r : NodeRecord) : (s.setNode n r).slotDiv = s.slotDiv := rfl
@[simp] theorem State.setNode_slotWait (n : Node) (r : NodeRecord) : (s.setNode n r).slotWait = s.slotWait := rfl
@[simp] theorem State.setNode_readData (n : Node) (r : NodeRecord) : (s.setNode n r).readData = s.readData := rfl
@[simp] theorem State.setNode_raised (n : Node) (r : NodeRecord) : (s.setNode n r).raised = s.raised := rfl
@[simp] theorem State.setNode_freeCount (n : Node) (r : NodeRecord) : (s.setNode n r).freeCount = s.freeCount := rfl
@[simp] theorem State.setNode_pending (n : Node) (r : NodeRecord) : (s.setNode n r).pending = s.pending := rfl

/-! ## raise -/

@[simp] theorem State.raise_mode (c : LocalCondition) : (s.raise c).mode = s.mode := rfl
@[simp] theorem State.raise_command (c : LocalCondition) : (s.raise c).command = s.command := rfl
@[simp] theorem State.raise_cmdLost (c : LocalCondition) : (s.raise c).cmdLost = s.cmdLost := rfl
@[simp] theorem State.raise_res (c : LocalCondition) : (s.raise c).res = s.res := rfl
@[simp] theorem State.raise_arg0 (c : LocalCondition) : (s.raise c).arg0 = s.arg0 := rfl
@[simp] theorem State.raise_arg1 (c : LocalCondition) : (s.raise c).arg1 = s.arg1 := rfl
@[simp] theorem State.raise_arg2 (c : LocalCondition) : (s.raise c).arg2 = s.arg2 := rfl
@[simp] theorem State.raise_arg3 (c : LocalCondition) : (s.raise c).arg3 = s.arg3 := rfl
@[simp] theorem State.raise_window (c : LocalCondition) : (s.raise c).window = s.window := rfl
@[simp] theorem State.raise_floor (c : LocalCondition) : (s.raise c).floor = s.floor := rfl
@[simp] theorem State.raise_lven0 (c : LocalCondition) : (s.raise c).lven0 = s.lven0 := rfl
@[simp] theorem State.raise_lven1 (c : LocalCondition) : (s.raise c).lven1 = s.lven1 := rfl
@[simp] theorem State.raise_lineMap (c : LocalCondition) : (s.raise c).lineMap = s.lineMap := rfl
@[simp] theorem State.raise_table (c : LocalCondition) : (s.raise c).table = s.table := rfl
@[simp] theorem State.raise_lastTag (c : LocalCondition) : (s.raise c).lastTag = s.lastTag := rfl
@[simp] theorem State.raise_rotation (c : LocalCondition) : (s.raise c).rotation = s.rotation := rfl
@[simp] theorem State.raise_stack (c : LocalCondition) : (s.raise c).stack = s.stack := rfl
@[simp] theorem State.raise_queue (c : LocalCondition) : (s.raise c).queue = s.queue := rfl
@[simp] theorem State.raise_nodes (c : LocalCondition) : (s.raise c).nodes = s.nodes := rfl
@[simp] theorem State.raise_div (c : LocalCondition) : (s.raise c).div = s.div := rfl
@[simp] theorem State.raise_replyWait (c : LocalCondition) : (s.raise c).replyWait = s.replyWait := rfl
@[simp] theorem State.raise_faultLimit (c : LocalCondition) : (s.raise c).faultLimit = s.faultLimit := rfl
@[simp] theorem State.raise_ring (c : LocalCondition) : (s.raise c).ring = s.ring := rfl
@[simp] theorem State.raise_discovery (c : LocalCondition) : (s.raise c).discovery = s.discovery := rfl
@[simp] theorem State.raise_burst (c : LocalCondition) : (s.raise c).burst = s.burst := rfl
@[simp] theorem State.raise_outCount (c : LocalCondition) : (s.raise c).outCount = s.outCount := rfl
@[simp] theorem State.raise_link (c : LocalCondition) : (s.raise c).link = s.link := rfl
@[simp] theorem State.raise_txBuffer (c : LocalCondition) : (s.raise c).txBuffer = s.txBuffer := rfl
@[simp] theorem State.raise_shiftReg (c : LocalCondition) : (s.raise c).shiftReg = s.shiftReg := rfl
@[simp] theorem State.raise_holding (c : LocalCondition) : (s.raise c).holding = s.holding := rfl
@[simp] theorem State.raise_bitTimer (c : LocalCondition) : (s.raise c).bitTimer = s.bitTimer := rfl
@[simp] theorem State.raise_slotDiv (c : LocalCondition) : (s.raise c).slotDiv = s.slotDiv := rfl
@[simp] theorem State.raise_slotWait (c : LocalCondition) : (s.raise c).slotWait = s.slotWait := rfl
@[simp] theorem State.raise_readData (c : LocalCondition) : (s.raise c).readData = s.readData := rfl
@[simp] theorem State.raise_raised (c : LocalCondition) : (s.raise c).raised = s.raised ++ [c] := rfl
@[simp] theorem State.raise_freeCount (c : LocalCondition) : (s.raise c).freeCount = s.freeCount := rfl
@[simp] theorem State.raise_pending (c : LocalCondition) : (s.raise c).pending = s.pending := rfl

/-! ## withRes -/

@[simp] theorem State.withRes_mode (r : ResultCode) : (s.withRes r).mode = s.mode := rfl
@[simp] theorem State.withRes_command (r : ResultCode) : (s.withRes r).command = s.command := rfl
@[simp] theorem State.withRes_cmdLost (r : ResultCode) : (s.withRes r).cmdLost = s.cmdLost := rfl
@[simp] theorem State.withRes_res (r : ResultCode) : (s.withRes r).res = r := rfl
@[simp] theorem State.withRes_arg0 (r : ResultCode) : (s.withRes r).arg0 = s.arg0 := rfl
@[simp] theorem State.withRes_arg1 (r : ResultCode) : (s.withRes r).arg1 = s.arg1 := rfl
@[simp] theorem State.withRes_arg2 (r : ResultCode) : (s.withRes r).arg2 = s.arg2 := rfl
@[simp] theorem State.withRes_arg3 (r : ResultCode) : (s.withRes r).arg3 = s.arg3 := rfl
@[simp] theorem State.withRes_window (r : ResultCode) : (s.withRes r).window = s.window := rfl
@[simp] theorem State.withRes_floor (r : ResultCode) : (s.withRes r).floor = s.floor := rfl
@[simp] theorem State.withRes_lven0 (r : ResultCode) : (s.withRes r).lven0 = s.lven0 := rfl
@[simp] theorem State.withRes_lven1 (r : ResultCode) : (s.withRes r).lven1 = s.lven1 := rfl
@[simp] theorem State.withRes_lineMap (r : ResultCode) : (s.withRes r).lineMap = s.lineMap := rfl
@[simp] theorem State.withRes_table (r : ResultCode) : (s.withRes r).table = s.table := rfl
@[simp] theorem State.withRes_lastTag (r : ResultCode) : (s.withRes r).lastTag = s.lastTag := rfl
@[simp] theorem State.withRes_rotation (r : ResultCode) : (s.withRes r).rotation = s.rotation := rfl
@[simp] theorem State.withRes_stack (r : ResultCode) : (s.withRes r).stack = s.stack := rfl
@[simp] theorem State.withRes_queue (r : ResultCode) : (s.withRes r).queue = s.queue := rfl
@[simp] theorem State.withRes_nodes (r : ResultCode) : (s.withRes r).nodes = s.nodes := rfl
@[simp] theorem State.withRes_div (r : ResultCode) : (s.withRes r).div = s.div := rfl
@[simp] theorem State.withRes_replyWait (r : ResultCode) : (s.withRes r).replyWait = s.replyWait := rfl
@[simp] theorem State.withRes_faultLimit (r : ResultCode) : (s.withRes r).faultLimit = s.faultLimit := rfl
@[simp] theorem State.withRes_ring (r : ResultCode) : (s.withRes r).ring = s.ring := rfl
@[simp] theorem State.withRes_discovery (r : ResultCode) : (s.withRes r).discovery = s.discovery := rfl
@[simp] theorem State.withRes_burst (r : ResultCode) : (s.withRes r).burst = s.burst := rfl
@[simp] theorem State.withRes_outCount (r : ResultCode) : (s.withRes r).outCount = s.outCount := rfl
@[simp] theorem State.withRes_link (r : ResultCode) : (s.withRes r).link = s.link := rfl
@[simp] theorem State.withRes_txBuffer (r : ResultCode) : (s.withRes r).txBuffer = s.txBuffer := rfl
@[simp] theorem State.withRes_shiftReg (r : ResultCode) : (s.withRes r).shiftReg = s.shiftReg := rfl
@[simp] theorem State.withRes_holding (r : ResultCode) : (s.withRes r).holding = s.holding := rfl
@[simp] theorem State.withRes_bitTimer (r : ResultCode) : (s.withRes r).bitTimer = s.bitTimer := rfl
@[simp] theorem State.withRes_slotDiv (r : ResultCode) : (s.withRes r).slotDiv = s.slotDiv := rfl
@[simp] theorem State.withRes_slotWait (r : ResultCode) : (s.withRes r).slotWait = s.slotWait := rfl
@[simp] theorem State.withRes_readData (r : ResultCode) : (s.withRes r).readData = s.readData := rfl
@[simp] theorem State.withRes_raised (r : ResultCode) : (s.withRes r).raised = s.raised := rfl
@[simp] theorem State.withRes_freeCount (r : ResultCode) : (s.withRes r).freeCount = s.freeCount := rfl
@[simp] theorem State.withRes_pending (r : ResultCode) : (s.withRes r).pending = s.pending := rfl

/-! ## assemble -/

@[simp] theorem State.assemble_mode (bytes : List Byte) : (s.assemble bytes).mode = s.mode := rfl
@[simp] theorem State.assemble_command (bytes : List Byte) : (s.assemble bytes).command = s.command := rfl
@[simp] theorem State.assemble_cmdLost (bytes : List Byte) : (s.assemble bytes).cmdLost = s.cmdLost := rfl
@[simp] theorem State.assemble_res (bytes : List Byte) : (s.assemble bytes).res = s.res := rfl
@[simp] theorem State.assemble_arg0 (bytes : List Byte) : (s.assemble bytes).arg0 = s.arg0 := rfl
@[simp] theorem State.assemble_arg1 (bytes : List Byte) : (s.assemble bytes).arg1 = s.arg1 := rfl
@[simp] theorem State.assemble_arg2 (bytes : List Byte) : (s.assemble bytes).arg2 = s.arg2 := rfl
@[simp] theorem State.assemble_arg3 (bytes : List Byte) : (s.assemble bytes).arg3 = s.arg3 := rfl
@[simp] theorem State.assemble_window (bytes : List Byte) : (s.assemble bytes).window = s.window := rfl
@[simp] theorem State.assemble_floor (bytes : List Byte) : (s.assemble bytes).floor = s.floor := rfl
@[simp] theorem State.assemble_lven0 (bytes : List Byte) : (s.assemble bytes).lven0 = s.lven0 := rfl
@[simp] theorem State.assemble_lven1 (bytes : List Byte) : (s.assemble bytes).lven1 = s.lven1 := rfl
@[simp] theorem State.assemble_lineMap (bytes : List Byte) : (s.assemble bytes).lineMap = s.lineMap := rfl
@[simp] theorem State.assemble_table (bytes : List Byte) : (s.assemble bytes).table = s.table := rfl
@[simp] theorem State.assemble_lastTag (bytes : List Byte) : (s.assemble bytes).lastTag = s.lastTag := rfl
@[simp] theorem State.assemble_rotation (bytes : List Byte) : (s.assemble bytes).rotation = s.rotation := rfl
@[simp] theorem State.assemble_stack (bytes : List Byte) : (s.assemble bytes).stack = s.stack := rfl
@[simp] theorem State.assemble_queue (bytes : List Byte) : (s.assemble bytes).queue = s.queue := rfl
@[simp] theorem State.assemble_nodes (bytes : List Byte) : (s.assemble bytes).nodes = s.nodes := rfl
@[simp] theorem State.assemble_div (bytes : List Byte) : (s.assemble bytes).div = s.div := rfl
@[simp] theorem State.assemble_replyWait (bytes : List Byte) : (s.assemble bytes).replyWait = s.replyWait := rfl
@[simp] theorem State.assemble_faultLimit (bytes : List Byte) : (s.assemble bytes).faultLimit = s.faultLimit := rfl
@[simp] theorem State.assemble_ring (bytes : List Byte) : (s.assemble bytes).ring = s.ring := rfl
@[simp] theorem State.assemble_discovery (bytes : List Byte) : (s.assemble bytes).discovery = s.discovery := rfl
@[simp] theorem State.assemble_burst (bytes : List Byte) : (s.assemble bytes).burst = s.burst := rfl
@[simp] theorem State.assemble_outCount (bytes : List Byte) : (s.assemble bytes).outCount = s.outCount := rfl
@[simp] theorem State.assemble_link (bytes : List Byte) : (s.assemble bytes).link = s.link := rfl
@[simp] theorem State.assemble_txBuffer (bytes : List Byte) : (s.assemble bytes).txBuffer = s.txBuffer := rfl
@[simp] theorem State.assemble_shiftReg (bytes : List Byte) : (s.assemble bytes).shiftReg = bytes := rfl
@[simp] theorem State.assemble_holding (bytes : List Byte) : (s.assemble bytes).holding = s.holding := rfl
@[simp] theorem State.assemble_bitTimer (bytes : List Byte) : (s.assemble bytes).bitTimer = s.bitTimer := rfl
@[simp] theorem State.assemble_slotDiv (bytes : List Byte) : (s.assemble bytes).slotDiv = s.slotDiv := rfl
@[simp] theorem State.assemble_slotWait (bytes : List Byte) : (s.assemble bytes).slotWait = s.slotWait := rfl
@[simp] theorem State.assemble_readData (bytes : List Byte) : (s.assemble bytes).readData = s.readData := rfl
@[simp] theorem State.assemble_raised (bytes : List Byte) : (s.assemble bytes).raised = s.raised := rfl
@[simp] theorem State.assemble_freeCount (bytes : List Byte) : (s.assemble bytes).freeCount = s.freeCount := rfl
@[simp] theorem State.assemble_pending (bytes : List Byte) : (s.assemble bytes).pending = s.pending := rfl

/-! ## enterLink -/

@[simp] theorem State.enterLink_mode (l : LinkState) (time : Nat) : (s.enterLink l time).mode = s.mode := rfl
@[simp] theorem State.enterLink_command (l : LinkState) (time : Nat) : (s.enterLink l time).command = s.command := rfl
@[simp] theorem State.enterLink_cmdLost (l : LinkState) (time : Nat) : (s.enterLink l time).cmdLost = s.cmdLost := rfl
@[simp] theorem State.enterLink_res (l : LinkState) (time : Nat) : (s.enterLink l time).res = s.res := rfl
@[simp] theorem State.enterLink_arg0 (l : LinkState) (time : Nat) : (s.enterLink l time).arg0 = s.arg0 := rfl
@[simp] theorem State.enterLink_arg1 (l : LinkState) (time : Nat) : (s.enterLink l time).arg1 = s.arg1 := rfl
@[simp] theorem State.enterLink_arg2 (l : LinkState) (time : Nat) : (s.enterLink l time).arg2 = s.arg2 := rfl
@[simp] theorem State.enterLink_arg3 (l : LinkState) (time : Nat) : (s.enterLink l time).arg3 = s.arg3 := rfl
@[simp] theorem State.enterLink_window (l : LinkState) (time : Nat) : (s.enterLink l time).window = s.window := rfl
@[simp] theorem State.enterLink_floor (l : LinkState) (time : Nat) : (s.enterLink l time).floor = s.floor := rfl
@[simp] theorem State.enterLink_lven0 (l : LinkState) (time : Nat) : (s.enterLink l time).lven0 = s.lven0 := rfl
@[simp] theorem State.enterLink_lven1 (l : LinkState) (time : Nat) : (s.enterLink l time).lven1 = s.lven1 := rfl
@[simp] theorem State.enterLink_lineMap (l : LinkState) (time : Nat) : (s.enterLink l time).lineMap = s.lineMap := rfl
@[simp] theorem State.enterLink_table (l : LinkState) (time : Nat) : (s.enterLink l time).table = s.table := rfl
@[simp] theorem State.enterLink_lastTag (l : LinkState) (time : Nat) : (s.enterLink l time).lastTag = s.lastTag := rfl
@[simp] theorem State.enterLink_rotation (l : LinkState) (time : Nat) : (s.enterLink l time).rotation = s.rotation := rfl
@[simp] theorem State.enterLink_stack (l : LinkState) (time : Nat) : (s.enterLink l time).stack = s.stack := rfl
@[simp] theorem State.enterLink_queue (l : LinkState) (time : Nat) : (s.enterLink l time).queue = s.queue := rfl
@[simp] theorem State.enterLink_nodes (l : LinkState) (time : Nat) : (s.enterLink l time).nodes = s.nodes := rfl
@[simp] theorem State.enterLink_div (l : LinkState) (time : Nat) : (s.enterLink l time).div = s.div := rfl
@[simp] theorem State.enterLink_replyWait (l : LinkState) (time : Nat) : (s.enterLink l time).replyWait = s.replyWait := rfl
@[simp] theorem State.enterLink_faultLimit (l : LinkState) (time : Nat) : (s.enterLink l time).faultLimit = s.faultLimit := rfl
@[simp] theorem State.enterLink_ring (l : LinkState) (time : Nat) : (s.enterLink l time).ring = s.ring := rfl
@[simp] theorem State.enterLink_discovery (l : LinkState) (time : Nat) : (s.enterLink l time).discovery = s.discovery := rfl
@[simp] theorem State.enterLink_burst (l : LinkState) (time : Nat) : (s.enterLink l time).burst = s.burst := rfl
@[simp] theorem State.enterLink_outCount (l : LinkState) (time : Nat) : (s.enterLink l time).outCount = s.outCount := rfl
@[simp] theorem State.enterLink_link (l : LinkState) (time : Nat) : (s.enterLink l time).link = l := rfl
@[simp] theorem State.enterLink_txBuffer (l : LinkState) (time : Nat) : (s.enterLink l time).txBuffer = s.txBuffer := rfl
@[simp] theorem State.enterLink_shiftReg (l : LinkState) (time : Nat) : (s.enterLink l time).shiftReg = s.shiftReg := rfl
@[simp] theorem State.enterLink_holding (l : LinkState) (time : Nat) : (s.enterLink l time).holding = s.holding := rfl
@[simp] theorem State.enterLink_bitTimer (l : LinkState) (time : Nat) : (s.enterLink l time).bitTimer = time := rfl
@[simp] theorem State.enterLink_slotDiv (l : LinkState) (time : Nat) : (s.enterLink l time).slotDiv = s.slotDiv := rfl
@[simp] theorem State.enterLink_slotWait (l : LinkState) (time : Nat) : (s.enterLink l time).slotWait = s.slotWait := rfl
@[simp] theorem State.enterLink_readData (l : LinkState) (time : Nat) : (s.enterLink l time).readData = s.readData := rfl
@[simp] theorem State.enterLink_raised (l : LinkState) (time : Nat) : (s.enterLink l time).raised = s.raised := rfl
@[simp] theorem State.enterLink_freeCount (l : LinkState) (time : Nat) : (s.enterLink l time).freeCount = s.freeCount := rfl
@[simp] theorem State.enterLink_pending (l : LinkState) (time : Nat) : (s.enterLink l time).pending = s.pending := rfl

/-! ## loadFrame -/

@[simp] theorem State.loadFrame_mode (dest : Node) (kind : FrameKind) (arg : Byte) : (s.loadFrame dest kind arg).mode = s.mode := rfl
@[simp] theorem State.loadFrame_command (dest : Node) (kind : FrameKind) (arg : Byte) : (s.loadFrame dest kind arg).command = s.command := rfl
@[simp] theorem State.loadFrame_cmdLost (dest : Node) (kind : FrameKind) (arg : Byte) : (s.loadFrame dest kind arg).cmdLost = s.cmdLost := rfl
@[simp] theorem State.loadFrame_res (dest : Node) (kind : FrameKind) (arg : Byte) : (s.loadFrame dest kind arg).res = s.res := rfl
@[simp] theorem State.loadFrame_arg0 (dest : Node) (kind : FrameKind) (arg : Byte) : (s.loadFrame dest kind arg).arg0 = s.arg0 := rfl
@[simp] theorem State.loadFrame_arg1 (dest : Node) (kind : FrameKind) (arg : Byte) : (s.loadFrame dest kind arg).arg1 = s.arg1 := rfl
@[simp] theorem State.loadFrame_arg2 (dest : Node) (kind : FrameKind) (arg : Byte) : (s.loadFrame dest kind arg).arg2 = s.arg2 := rfl
@[simp] theorem State.loadFrame_arg3 (dest : Node) (kind : FrameKind) (arg : Byte) : (s.loadFrame dest kind arg).arg3 = s.arg3 := rfl
@[simp] theorem State.loadFrame_window (dest : Node) (kind : FrameKind) (arg : Byte) : (s.loadFrame dest kind arg).window = s.window := rfl
@[simp] theorem State.loadFrame_floor (dest : Node) (kind : FrameKind) (arg : Byte) : (s.loadFrame dest kind arg).floor = s.floor := rfl
@[simp] theorem State.loadFrame_lven0 (dest : Node) (kind : FrameKind) (arg : Byte) : (s.loadFrame dest kind arg).lven0 = s.lven0 := rfl
@[simp] theorem State.loadFrame_lven1 (dest : Node) (kind : FrameKind) (arg : Byte) : (s.loadFrame dest kind arg).lven1 = s.lven1 := rfl
@[simp] theorem State.loadFrame_lineMap (dest : Node) (kind : FrameKind) (arg : Byte) : (s.loadFrame dest kind arg).lineMap = s.lineMap := rfl
@[simp] theorem State.loadFrame_table (dest : Node) (kind : FrameKind) (arg : Byte) : (s.loadFrame dest kind arg).table = s.table := rfl
@[simp] theorem State.loadFrame_lastTag (dest : Node) (kind : FrameKind) (arg : Byte) : (s.loadFrame dest kind arg).lastTag = s.lastTag := rfl
@[simp] theorem State.loadFrame_rotation (dest : Node) (kind : FrameKind) (arg : Byte) : (s.loadFrame dest kind arg).rotation = s.rotation := rfl
@[simp] theorem State.loadFrame_stack (dest : Node) (kind : FrameKind) (arg : Byte) : (s.loadFrame dest kind arg).stack = s.stack := rfl
@[simp] theorem State.loadFrame_queue (dest : Node) (kind : FrameKind) (arg : Byte) : (s.loadFrame dest kind arg).queue = s.queue := rfl
@[simp] theorem State.loadFrame_nodes (dest : Node) (kind : FrameKind) (arg : Byte) : (s.loadFrame dest kind arg).nodes = s.nodes := rfl
@[simp] theorem State.loadFrame_div (dest : Node) (kind : FrameKind) (arg : Byte) : (s.loadFrame dest kind arg).div = s.div := rfl
@[simp] theorem State.loadFrame_replyWait (dest : Node) (kind : FrameKind) (arg : Byte) : (s.loadFrame dest kind arg).replyWait = s.replyWait := rfl
@[simp] theorem State.loadFrame_faultLimit (dest : Node) (kind : FrameKind) (arg : Byte) : (s.loadFrame dest kind arg).faultLimit = s.faultLimit := rfl
@[simp] theorem State.loadFrame_ring (dest : Node) (kind : FrameKind) (arg : Byte) : (s.loadFrame dest kind arg).ring = s.ring := rfl
@[simp] theorem State.loadFrame_discovery (dest : Node) (kind : FrameKind) (arg : Byte) : (s.loadFrame dest kind arg).discovery = s.discovery := rfl
@[simp] theorem State.loadFrame_burst (dest : Node) (kind : FrameKind) (arg : Byte) : (s.loadFrame dest kind arg).burst = s.burst := rfl
@[simp] theorem State.loadFrame_outCount (dest : Node) (kind : FrameKind) (arg : Byte) : (s.loadFrame dest kind arg).outCount = s.outCount := rfl
@[simp] theorem State.loadFrame_link (dest : Node) (kind : FrameKind) (arg : Byte) : (s.loadFrame dest kind arg).link = .send := rfl
@[simp] theorem State.loadFrame_txBuffer (dest : Node) (kind : FrameKind) (arg : Byte) : (s.loadFrame dest kind arg).txBuffer = some (TxFrame.build dest kind arg) := rfl
@[simp] theorem State.loadFrame_shiftReg (dest : Node) (kind : FrameKind) (arg : Byte) : (s.loadFrame dest kind arg).shiftReg = [] := rfl
@[simp] theorem State.loadFrame_holding (dest : Node) (kind : FrameKind) (arg : Byte) : (s.loadFrame dest kind arg).holding = s.holding := rfl
@[simp] theorem State.loadFrame_bitTimer (dest : Node) (kind : FrameKind) (arg : Byte) : (s.loadFrame dest kind arg).bitTimer = 0 := rfl
@[simp] theorem State.loadFrame_slotDiv (dest : Node) (kind : FrameKind) (arg : Byte) : (s.loadFrame dest kind arg).slotDiv = s.div := rfl
@[simp] theorem State.loadFrame_slotWait (dest : Node) (kind : FrameKind) (arg : Byte) : (s.loadFrame dest kind arg).slotWait = s.replyWait := rfl
@[simp] theorem State.loadFrame_readData (dest : Node) (kind : FrameKind) (arg : Byte) : (s.loadFrame dest kind arg).readData = s.readData := rfl
@[simp] theorem State.loadFrame_raised (dest : Node) (kind : FrameKind) (arg : Byte) : (s.loadFrame dest kind arg).raised = s.raised := rfl
@[simp] theorem State.loadFrame_freeCount (dest : Node) (kind : FrameKind) (arg : Byte) : (s.loadFrame dest kind arg).freeCount = s.freeCount := rfl
@[simp] theorem State.loadFrame_pending (dest : Node) (kind : FrameKind) (arg : Byte) : (s.loadFrame dest kind arg).pending = s.pending := rfl

/-! ## fillWindow -/

@[simp] theorem State.fillWindow_mode (e : Entry) (level : Level) (auto : Bool) : (s.fillWindow e level auto).mode = s.mode := rfl
@[simp] theorem State.fillWindow_command (e : Entry) (level : Level) (auto : Bool) : (s.fillWindow e level auto).command = s.command := rfl
@[simp] theorem State.fillWindow_cmdLost (e : Entry) (level : Level) (auto : Bool) : (s.fillWindow e level auto).cmdLost = s.cmdLost := rfl
@[simp] theorem State.fillWindow_res (e : Entry) (level : Level) (auto : Bool) : (s.fillWindow e level auto).res = s.res := rfl
@[simp] theorem State.fillWindow_arg0 (e : Entry) (level : Level) (auto : Bool) : (s.fillWindow e level auto).arg0 = s.arg0 := rfl
@[simp] theorem State.fillWindow_arg1 (e : Entry) (level : Level) (auto : Bool) : (s.fillWindow e level auto).arg1 = s.arg1 := rfl
@[simp] theorem State.fillWindow_arg2 (e : Entry) (level : Level) (auto : Bool) : (s.fillWindow e level auto).arg2 = s.arg2 := rfl
@[simp] theorem State.fillWindow_arg3 (e : Entry) (level : Level) (auto : Bool) : (s.fillWindow e level auto).arg3 = s.arg3 := rfl
@[simp] theorem State.fillWindow_window (e : Entry) (level : Level) (auto : Bool) : (s.fillWindow e level auto).window = .claimed (claimRecord e level auto) := rfl
@[simp] theorem State.fillWindow_floor (e : Entry) (level : Level) (auto : Bool) : (s.fillWindow e level auto).floor = s.floor := rfl
@[simp] theorem State.fillWindow_lven0 (e : Entry) (level : Level) (auto : Bool) : (s.fillWindow e level auto).lven0 = s.lven0 := rfl
@[simp] theorem State.fillWindow_lven1 (e : Entry) (level : Level) (auto : Bool) : (s.fillWindow e level auto).lven1 = s.lven1 := rfl
@[simp] theorem State.fillWindow_lineMap (e : Entry) (level : Level) (auto : Bool) : (s.fillWindow e level auto).lineMap = s.lineMap := rfl
@[simp] theorem State.fillWindow_table (e : Entry) (level : Level) (auto : Bool) : (s.fillWindow e level auto).table = s.table := rfl
@[simp] theorem State.fillWindow_lastTag (e : Entry) (level : Level) (auto : Bool) : (s.fillWindow e level auto).lastTag = s.lastTag := rfl
@[simp] theorem State.fillWindow_rotation (e : Entry) (level : Level) (auto : Bool) : (s.fillWindow e level auto).rotation = s.rotation.set level e.source := rfl
@[simp] theorem State.fillWindow_stack (e : Entry) (level : Level) (auto : Bool) : (s.fillWindow e level auto).stack = s.stack := rfl
@[simp] theorem State.fillWindow_queue (e : Entry) (level : Level) (auto : Bool) : (s.fillWindow e level auto).queue = s.queue := rfl
@[simp] theorem State.fillWindow_nodes (e : Entry) (level : Level) (auto : Bool) : (s.fillWindow e level auto).nodes = s.nodes := rfl
@[simp] theorem State.fillWindow_div (e : Entry) (level : Level) (auto : Bool) : (s.fillWindow e level auto).div = s.div := rfl
@[simp] theorem State.fillWindow_replyWait (e : Entry) (level : Level) (auto : Bool) : (s.fillWindow e level auto).replyWait = s.replyWait := rfl
@[simp] theorem State.fillWindow_faultLimit (e : Entry) (level : Level) (auto : Bool) : (s.fillWindow e level auto).faultLimit = s.faultLimit := rfl
@[simp] theorem State.fillWindow_ring (e : Entry) (level : Level) (auto : Bool) : (s.fillWindow e level auto).ring = s.ring := rfl
@[simp] theorem State.fillWindow_discovery (e : Entry) (level : Level) (auto : Bool) : (s.fillWindow e level auto).discovery = s.discovery := rfl
@[simp] theorem State.fillWindow_burst (e : Entry) (level : Level) (auto : Bool) : (s.fillWindow e level auto).burst = s.burst := rfl
@[simp] theorem State.fillWindow_outCount (e : Entry) (level : Level) (auto : Bool) : (s.fillWindow e level auto).outCount = s.outCount := rfl
@[simp] theorem State.fillWindow_link (e : Entry) (level : Level) (auto : Bool) : (s.fillWindow e level auto).link = s.link := rfl
@[simp] theorem State.fillWindow_txBuffer (e : Entry) (level : Level) (auto : Bool) : (s.fillWindow e level auto).txBuffer = s.txBuffer := rfl
@[simp] theorem State.fillWindow_shiftReg (e : Entry) (level : Level) (auto : Bool) : (s.fillWindow e level auto).shiftReg = s.shiftReg := rfl
@[simp] theorem State.fillWindow_holding (e : Entry) (level : Level) (auto : Bool) : (s.fillWindow e level auto).holding = s.holding := rfl
@[simp] theorem State.fillWindow_bitTimer (e : Entry) (level : Level) (auto : Bool) : (s.fillWindow e level auto).bitTimer = s.bitTimer := rfl
@[simp] theorem State.fillWindow_slotDiv (e : Entry) (level : Level) (auto : Bool) : (s.fillWindow e level auto).slotDiv = s.slotDiv := rfl
@[simp] theorem State.fillWindow_slotWait (e : Entry) (level : Level) (auto : Bool) : (s.fillWindow e level auto).slotWait = s.slotWait := rfl
@[simp] theorem State.fillWindow_readData (e : Entry) (level : Level) (auto : Bool) : (s.fillWindow e level auto).readData = some (tagByte e.tag) := rfl
@[simp] theorem State.fillWindow_raised (e : Entry) (level : Level) (auto : Bool) : (s.fillWindow e level auto).raised = s.raised := rfl
@[simp] theorem State.fillWindow_freeCount (e : Entry) (level : Level) (auto : Bool) : (s.fillWindow e level auto).freeCount = s.freeCount := rfl
@[simp] theorem State.fillWindow_pending (e : Entry) (level : Level) (auto : Bool) : (s.fillWindow e level auto).pending = s.pending := rfl

/-! ## claimNull -/

@[simp] theorem State.claimNull_mode (reason : NullReason) : (s.claimNull reason).mode = s.mode := rfl
@[simp] theorem State.claimNull_command (reason : NullReason) : (s.claimNull reason).command = s.command := rfl
@[simp] theorem State.claimNull_cmdLost (reason : NullReason) : (s.claimNull reason).cmdLost = s.cmdLost := rfl
@[simp] theorem State.claimNull_res (reason : NullReason) : (s.claimNull reason).res = s.res := rfl
@[simp] theorem State.claimNull_arg0 (reason : NullReason) : (s.claimNull reason).arg0 = s.arg0 := rfl
@[simp] theorem State.claimNull_arg1 (reason : NullReason) : (s.claimNull reason).arg1 = s.arg1 := rfl
@[simp] theorem State.claimNull_arg2 (reason : NullReason) : (s.claimNull reason).arg2 = s.arg2 := rfl
@[simp] theorem State.claimNull_arg3 (reason : NullReason) : (s.claimNull reason).arg3 = s.arg3 := rfl
@[simp] theorem State.claimNull_window (reason : NullReason) : (s.claimNull reason).window = .null reason := rfl
@[simp] theorem State.claimNull_floor (reason : NullReason) : (s.claimNull reason).floor = s.floor := rfl
@[simp] theorem State.claimNull_lven0 (reason : NullReason) : (s.claimNull reason).lven0 = s.lven0 := rfl
@[simp] theorem State.claimNull_lven1 (reason : NullReason) : (s.claimNull reason).lven1 = s.lven1 := rfl
@[simp] theorem State.claimNull_lineMap (reason : NullReason) : (s.claimNull reason).lineMap = s.lineMap := rfl
@[simp] theorem State.claimNull_table (reason : NullReason) : (s.claimNull reason).table = s.table := rfl
@[simp] theorem State.claimNull_lastTag (reason : NullReason) : (s.claimNull reason).lastTag = s.lastTag := rfl
@[simp] theorem State.claimNull_rotation (reason : NullReason) : (s.claimNull reason).rotation = s.rotation := rfl
@[simp] theorem State.claimNull_stack (reason : NullReason) : (s.claimNull reason).stack = s.stack := rfl
@[simp] theorem State.claimNull_queue (reason : NullReason) : (s.claimNull reason).queue = s.queue := rfl
@[simp] theorem State.claimNull_nodes (reason : NullReason) : (s.claimNull reason).nodes = s.nodes := rfl
@[simp] theorem State.claimNull_div (reason : NullReason) : (s.claimNull reason).div = s.div := rfl
@[simp] theorem State.claimNull_replyWait (reason : NullReason) : (s.claimNull reason).replyWait = s.replyWait := rfl
@[simp] theorem State.claimNull_faultLimit (reason : NullReason) : (s.claimNull reason).faultLimit = s.faultLimit := rfl
@[simp] theorem State.claimNull_ring (reason : NullReason) : (s.claimNull reason).ring = s.ring := rfl
@[simp] theorem State.claimNull_discovery (reason : NullReason) : (s.claimNull reason).discovery = s.discovery := rfl
@[simp] theorem State.claimNull_burst (reason : NullReason) : (s.claimNull reason).burst = s.burst := rfl
@[simp] theorem State.claimNull_outCount (reason : NullReason) : (s.claimNull reason).outCount = s.outCount := rfl
@[simp] theorem State.claimNull_link (reason : NullReason) : (s.claimNull reason).link = s.link := rfl
@[simp] theorem State.claimNull_txBuffer (reason : NullReason) : (s.claimNull reason).txBuffer = s.txBuffer := rfl
@[simp] theorem State.claimNull_shiftReg (reason : NullReason) : (s.claimNull reason).shiftReg = s.shiftReg := rfl
@[simp] theorem State.claimNull_holding (reason : NullReason) : (s.claimNull reason).holding = s.holding := rfl
@[simp] theorem State.claimNull_bitTimer (reason : NullReason) : (s.claimNull reason).bitTimer = s.bitTimer := rfl
@[simp] theorem State.claimNull_slotDiv (reason : NullReason) : (s.claimNull reason).slotDiv = s.slotDiv := rfl
@[simp] theorem State.claimNull_slotWait (reason : NullReason) : (s.claimNull reason).slotWait = s.slotWait := rfl
@[simp] theorem State.claimNull_readData (reason : NullReason) : (s.claimNull reason).readData = some 0x00#8 := rfl
@[simp] theorem State.claimNull_raised (reason : NullReason) : (s.claimNull reason).raised = s.raised := rfl
@[simp] theorem State.claimNull_freeCount (reason : NullReason) : (s.claimNull reason).freeCount = s.freeCount := rfl
@[simp] theorem State.claimNull_pending (reason : NullReason) : (s.claimNull reason).pending = s.pending := rfl

/-! ## writeFloor -/

@[simp] theorem State.writeFloor_mode (value : Byte) : (s.writeFloor value).mode = s.mode := rfl
@[simp] theorem State.writeFloor_command (value : Byte) : (s.writeFloor value).command = s.command := rfl
@[simp] theorem State.writeFloor_cmdLost (value : Byte) : (s.writeFloor value).cmdLost = s.cmdLost := rfl
@[simp] theorem State.writeFloor_res (value : Byte) : (s.writeFloor value).res = s.res := rfl
@[simp] theorem State.writeFloor_arg0 (value : Byte) : (s.writeFloor value).arg0 = s.arg0 := rfl
@[simp] theorem State.writeFloor_arg1 (value : Byte) : (s.writeFloor value).arg1 = s.arg1 := rfl
@[simp] theorem State.writeFloor_arg2 (value : Byte) : (s.writeFloor value).arg2 = s.arg2 := rfl
@[simp] theorem State.writeFloor_arg3 (value : Byte) : (s.writeFloor value).arg3 = s.arg3 := rfl
@[simp] theorem State.writeFloor_window (value : Byte) : (s.writeFloor value).window = s.window := rfl
@[simp] theorem State.writeFloor_floor (value : Byte) : (s.writeFloor value).floor = Fin.ofNat 16 (bits value 0 4) := rfl
@[simp] theorem State.writeFloor_lven0 (value : Byte) : (s.writeFloor value).lven0 = s.lven0 := rfl
@[simp] theorem State.writeFloor_lven1 (value : Byte) : (s.writeFloor value).lven1 = s.lven1 := rfl
@[simp] theorem State.writeFloor_lineMap (value : Byte) : (s.writeFloor value).lineMap = s.lineMap := rfl
@[simp] theorem State.writeFloor_table (value : Byte) : (s.writeFloor value).table = s.table := rfl
@[simp] theorem State.writeFloor_lastTag (value : Byte) : (s.writeFloor value).lastTag = s.lastTag := rfl
@[simp] theorem State.writeFloor_rotation (value : Byte) : (s.writeFloor value).rotation = s.rotation := rfl
@[simp] theorem State.writeFloor_stack (value : Byte) : (s.writeFloor value).stack = s.stack := rfl
@[simp] theorem State.writeFloor_queue (value : Byte) : (s.writeFloor value).queue = s.queue := rfl
@[simp] theorem State.writeFloor_nodes (value : Byte) : (s.writeFloor value).nodes = s.nodes := rfl
@[simp] theorem State.writeFloor_div (value : Byte) : (s.writeFloor value).div = s.div := rfl
@[simp] theorem State.writeFloor_replyWait (value : Byte) : (s.writeFloor value).replyWait = s.replyWait := rfl
@[simp] theorem State.writeFloor_faultLimit (value : Byte) : (s.writeFloor value).faultLimit = s.faultLimit := rfl
@[simp] theorem State.writeFloor_ring (value : Byte) : (s.writeFloor value).ring = s.ring := rfl
@[simp] theorem State.writeFloor_discovery (value : Byte) : (s.writeFloor value).discovery = s.discovery := rfl
@[simp] theorem State.writeFloor_burst (value : Byte) : (s.writeFloor value).burst = s.burst := rfl
@[simp] theorem State.writeFloor_outCount (value : Byte) : (s.writeFloor value).outCount = s.outCount := rfl
@[simp] theorem State.writeFloor_link (value : Byte) : (s.writeFloor value).link = s.link := rfl
@[simp] theorem State.writeFloor_txBuffer (value : Byte) : (s.writeFloor value).txBuffer = s.txBuffer := rfl
@[simp] theorem State.writeFloor_shiftReg (value : Byte) : (s.writeFloor value).shiftReg = s.shiftReg := rfl
@[simp] theorem State.writeFloor_holding (value : Byte) : (s.writeFloor value).holding = s.holding := rfl
@[simp] theorem State.writeFloor_bitTimer (value : Byte) : (s.writeFloor value).bitTimer = s.bitTimer := rfl
@[simp] theorem State.writeFloor_slotDiv (value : Byte) : (s.writeFloor value).slotDiv = s.slotDiv := rfl
@[simp] theorem State.writeFloor_slotWait (value : Byte) : (s.writeFloor value).slotWait = s.slotWait := rfl
@[simp] theorem State.writeFloor_readData (value : Byte) : (s.writeFloor value).readData = s.readData := rfl
@[simp] theorem State.writeFloor_raised (value : Byte) : (s.writeFloor value).raised = s.raised := rfl
@[simp] theorem State.writeFloor_freeCount (value : Byte) : (s.writeFloor value).freeCount = s.freeCount := rfl
@[simp] theorem State.writeFloor_pending (value : Byte) : (s.writeFloor value).pending = s.pending := rfl

end Sys2Proof.Machine
end

