-- ==== Sys2Proof/Laws/Ops.lean ====
section
/-! SUPPORT. For each shared operation, once, everything it can do: the lemmas that proofs cite instead of unfolding it. -/

namespace Sys2Proof.Machine

/-! ## Tables of fixed length -/

@[simp] theorem mapSlots_toList {α β : Type} {n : Nat} (f : α → β) (v : Vector α n) :
    (mapSlots f v).toList = v.toList.map f := by
  simp [mapSlots, Vector.toList]

@[simp] theorem mapSlots_getElem {α β : Type} {n : Nat} (f : α → β) (v : Vector α n) (i : Nat) (h : i < n) :
    (mapSlots f v)[i] = f v[i] := by
  simp [mapSlots, Vector.getElem_mk]

/-- `mapSlots` is `Vector.map`, written so that the kernel evaluates it. -/
theorem mapSlots_eq_map {α β : Type} {n : Nat} (f : α → β) (v : Vector α n) : mapSlots f v = v.map f := by
  ext i h
  simp

@[simp] theorem mem_slots (i : Fin 32) : i ∈ slots := List.mem_finRange i

@[simp] theorem mem_nodeList (n : Node) : n ∈ nodeList := List.mem_finRange n

/-! ## The Pending Table -/

/-- The pending entries are the contents of the slots. -/
theorem mem_pendingEntries {s : State} {e : Entry} : e ∈ s.pendingEntries ↔ ∃ i : Fin 32, s.table[i] = some e := by
  simp only [State.pendingEntries, List.mem_filterMap, id, Vector.mem_toList_iff, Vector.mem_iff_getElem]
  constructor
  · rintro ⟨_, ⟨i, h, hi⟩, rfl⟩
    exact ⟨⟨i, h⟩, hi⟩
  · rintro ⟨i, hi⟩
    exact ⟨_, ⟨i.val, i.isLt, hi⟩, rfl⟩

/-- What `findPending` finds is in the slot it names and satisfies the predicate. -/
theorem findPending_some {s : State} {p : Entry → Bool} {i : Fin 32} {e : Entry} (h : s.findPending p = some (i, e)) :
    s.table[i] = some e ∧ p e = true := by
  obtain ⟨j, -, hj⟩ := List.exists_of_findSome?_eq_some h
  cases ht : s.table[j] with
  | none => simp [ht] at hj
  | some x =>
    by_cases hp : p x = true
    · simp [ht, Option.filter, hp] at hj
      obtain ⟨rfl, rfl⟩ := hj
      exact ⟨ht, hp⟩
    · simp [ht, Option.filter, hp] at hj

/-- `findPending` finds nothing exactly when no pending entry satisfies the predicate. -/
theorem findPending_none {s : State} {p : Entry → Bool} :
    s.findPending p = none ↔ ∀ e ∈ s.pendingEntries, p e = false := by
  simp only [State.findPending, List.findSome?_eq_none_iff, mem_slots, true_implies, mem_pendingEntries]
  constructor
  · rintro h e ⟨i, hi⟩
    have := h i
    rw [hi] at this
    by_cases hp : p e = true
    · simp [Option.filter, hp] at this
    · simpa using hp
  · intro h i
    cases ht : s.table[i] with
    | none => rfl
    | some e => simp [Option.filter, h e ⟨i, ht⟩]

/-- The slot that an insertion takes is empty. -/
theorem freeSlot_some {s : State} {i : Fin 32} (h : s.freeSlot = some i) : s.table[i] = none := by
  have := List.find?_some h
  simpa using this

/-- No slot below the one that an insertion takes is empty (R21). -/
theorem freeSlot_lowest {s : State} {i : Fin 32} (h : s.freeSlot = some i) (j : Fin 32) (hj : j < i) :
    s.table[j] ≠ none := by
  intro hn
  obtain ⟨-, as, bs, hs, has⟩ := List.find?_eq_some_iff_append.mp h
  have hmem : j ∈ as ++ i :: bs := hs ▸ mem_slots j
  have hpw : (as ++ i :: bs).Pairwise (· < ·) := hs ▸ List.pairwise_lt_finRange 32
  rcases List.mem_append.mp hmem with hm | hm
  · have := has j hm
    simp [hn] at this
  · have h2 := (List.pairwise_append.mp hpw).2.1
    rcases List.mem_cons.mp hm with rfl | hm
    · exact absurd hj (lt_irrefl _)
    · have := (List.pairwise_cons.mp h2).1 j hm
      exact absurd hj (not_lt.mpr this.le)

/-- With no empty slot, every slot is full. -/
theorem freeSlot_none {s : State} (h : s.freeSlot = none) (i : Fin 32) : s.table[i] ≠ none := by
  have := List.find?_eq_none.mp h i (mem_slots i)
  intro hn
  simp [hn] at this

/-! ## Tags -/

/-- A tag is live exactly when an entry in the table or on the stack holds it. -/
theorem tagLive_iff {s : State} {t : Tag} :
    s.tagLive t = true ↔ (∃ e ∈ s.pendingEntries, e.tag = t) ∨ ∃ e ∈ s.stack, e.entry.tag = t := by
  simp [State.tagLive]

/-- The tag that the allocator takes is not live. -/
theorem nextTag_not_live {s : State} {t : Tag} (h : s.nextTag = some t) : s.tagLive t = false := by
  have := List.find?_some h
  simpa using this

/-- The allocator tries tags 1 to 63 only. -/
theorem tagOrder_ne_zero {last t : Tag} (h : t ∈ tagOrder last) : t ≠ 0 := by
  simp only [tagOrder, List.mem_map, List.mem_range] at h
  obtain ⟨i, hi, rfl⟩ := h
  intro hz
  have := congrArg Fin.val hz
  simp only [Fin.ofNat, Fin.val_zero] at this
  omega

/-- The tag that the allocator takes is 1 to 63. -/
theorem nextTag_ne_zero {s : State} {t : Tag} (h : s.nextTag = some t) : t ≠ 0 :=
  tagOrder_ne_zero (List.mem_of_find?_eq_some h)

/-- An insertion that does not fault fills an empty slot, under a tag that is not live. -/
theorem insertEntry_ok {s t : State} {src : Source} {line : Line} {kind : Kind} {payload : List Byte} {repost : Bool}
    (h : s.insertEntry src line kind payload repost = .ok t) :
    ∃ i tag, s.freeSlot = some i ∧ s.nextTag = some tag ∧
      t = { s.setSlot i (some ⟨tag, src, line, kind, 1, payload, false, repost⟩) with lastTag := tag } := by
  unfold State.insertEntry at h
  split at h
  · cases h
  · cases h
  · rename_i i tag hi ht
    exact ⟨i, tag, hi, ht, by cases h; rfl⟩

/-- An insertion faults only with a full table or with no free tag. -/
theorem insertEntry_error {s : State} {src : Source} {line : Line} {kind : Kind} {payload : List Byte} {repost : Bool}
    {f : Fault} (h : s.insertEntry src line kind payload repost = .error f) :
    (f = .noFreeSlot ∧ s.freeSlot = none) ∨ (f = .noFreeTag ∧ s.nextTag = none) := by
  unfold State.insertEntry at h
  split at h
  · rename_i hn; cases h; exact .inl ⟨rfl, hn⟩
  · rename_i hn; cases h; exact .inr ⟨rfl, hn⟩
  · cases h

/-! ## Local postings -/

/-- A posting that does not fault drops on a disabled line, merges into the pending entry of the line, or inserts (R30). -/
theorem post_ok {s t : State} {line : Line} {payload : List Byte} (h : s.post line payload = .ok t) :
    ((s.lineConfig localSource line).enable = false ∧ t = s) ∨
      (∃ i e, (s.lineConfig localSource line).enable = true ∧ s.pendingOn localSource line = some (i, e) ∧
        t = s.setSlot i (some { e with count := countUp e.count, payload := unionSets e.payload payload })) ∨
      ((s.lineConfig localSource line).enable = true ∧ s.pendingOn localSource line = none ∧
        s.insertEntry localSource line .edge payload false = .ok t) := by
  unfold State.post at h
  split at h
  · rename_i hen
    split at h
    · rename_i i e hp
      exact .inr (.inl ⟨i, e, hen, hp, by cases h; rfl⟩)
    · rename_i hp
      exact .inr (.inr ⟨hen, hp, h⟩)
  · rename_i hen
    exact .inl ⟨by simpa using hen, by cases h; rfl⟩

@[simp] theorem post_disabled {s : State} {line : Line} {payload : List Byte}
    (h : (s.lineConfig localSource line).enable = false) : s.post line payload = .ok s := by
  simp [State.post, h]

theorem postRaised_nil {s : State} (h : s.raised = []) : s.postRaised = .ok s := by
  cases s
  simp only at h
  subst h
  rfl

/-- A posting touches the Pending Table and the last allocated tag only. -/
theorem post_frame {s t : State} {line : Line} {payload : List Byte} (h : s.post line payload = .ok t) :
    t = { s with table := t.table, lastTag := t.lastTag } := by
  rcases post_ok h with ⟨-, rfl⟩ | ⟨i, e, -, -, rfl⟩ | ⟨-, -, h⟩
  · rfl
  · rfl
  · obtain ⟨i, tag, -, -, rfl⟩ := insertEntry_ok h
    rfl

/-! ## Bits on LDI -/

/-- A byte made of eight samples has the `j`-th of them as bit `j` (R104). -/
theorem byteOfSamples_getLsbD (b : Nat → Bool) (j : Nat) (h : j < 8) : (byteOfSamples b).getLsbD j = b j := by
  obtain rfl | rfl | rfl | rfl | rfl | rfl | rfl | rfl :
    j = 0 ∨ j = 1 ∨ j = 2 ∨ j = 3 ∨ j = 4 ∨ j = 5 ∨ j = 6 ∨ j = 7 := by omega
  all_goals
    unfold byteOfSamples
    generalize b 0 = b0, b 1 = b1, b 2 = b2, b 3 = b3, b 4 = b4, b 5 = b5, b 6 = b6, b 7 = b7
    revert b0 b1 b2 b3 b4 b5 b6 b7
    decide

/-- Bit `j` of the `i`-th byte assembled is sample `8 i + j` after the start bit, 1 where the node has stopped driving
(R104). -/
theorem sample_getLsbD (ldi : List Bool) (i j : Nat) (h : j < 8) :
    (sample ldi i).getLsbD j = ldi.getD (8 * i + j) true :=
  byteOfSamples_getLsbD _ j h

/-- The bits of a byte as they are sent, by their place (R97). -/
theorem byteBits_getD (b : Byte) (j : Nat) (h : j < 8) (d : Bool) : (byteBits b).getD j d = b.getLsbD j := by
  obtain rfl | rfl | rfl | rfl | rfl | rfl | rfl | rfl :
    j = 0 ∨ j = 1 ∨ j = 2 ∨ j = 3 ∨ j = 4 ∨ j = 5 ∨ j = 6 ∨ j = 7 := by omega
  all_goals rfl

@[simp] theorem wireBits_nil : wireBits [] = [] := rfl

@[simp] theorem wireBits_cons (b : Byte) (bytes : List Byte) : wireBits (b :: bytes) = byteBits b ++ wireBits bytes := rfl

@[simp] theorem byteBits_length (b : Byte) : (byteBits b).length = 8 := rfl

/-- Eight samples to a byte: the bytes assembled are those sent (R97, R104), and FFh where none is sent. -/
theorem sample_wireBits (bytes : List Byte) (i : Nat) : sample (wireBits bytes) i = bytes.getD i 0xFF#8 := by
  have key : ∀ j, j < 8 → (wireBits bytes).getD (8 * i + j) true = (bytes.getD i 0xFF#8).getLsbD j := by
    intro j h
    induction bytes generalizing i with
    | nil =>
      obtain rfl | rfl | rfl | rfl | rfl | rfl | rfl | rfl :
        j = 0 ∨ j = 1 ∨ j = 2 ∨ j = 3 ∨ j = 4 ∨ j = 5 ∨ j = 6 ∨ j = 7 := by omega
      all_goals simp
    | cons b bytes ih =>
      cases i with
      | zero =>
        rw [wireBits_cons, Nat.mul_zero, Nat.zero_add, List.getD_append _ _ _ _ (by simpa using h), byteBits_getD b j h]
        simp
      | succ i =>
        rw [wireBits_cons, List.getD_append_right _ _ _ _ (by simp; omega), byteBits_length,
          show 8 * (i + 1) + j - 8 = 8 * i + j by omega, ih i]
        simp
  apply BitVec.eq_of_getLsbD_eq
  intro j h
  rw [sample_getLsbD _ _ _ h, key j h]

/-! ## The Outbound Queue -/

/-- A head check that loads a frame has dropped exactly the frames before it, each of which fails the check (R120). -/
theorem takeHead_some {nodes : Vector NodeRecord 15} {l rest : List OutFrame} {f : OutFrame}
    (h : takeHead nodes l = some (f, rest)) :
    ∃ dropped, l = dropped ++ f :: rest ∧ (∀ g ∈ dropped, g.sendable nodes[g.dest].state = false) ∧
      f.sendable nodes[f.dest].state = true := by
  induction l with
  | nil => cases h
  | cons g l ih =>
    unfold takeHead at h
    split at h
    · rename_i hg
      cases h
      exact ⟨[], rfl, by simp, hg⟩
    · rename_i hg
      obtain ⟨d, rfl, hd, hf⟩ := ih h
      refine ⟨g :: d, rfl, ?_, hf⟩
      rintro x hx
      rcases List.mem_cons.mp hx with rfl | hx
      · simpa using hg
      · exact hd x hx

/-- With no frame loaded, every frame of the queue has failed the check (R120). -/
theorem takeHead_none {nodes : Vector NodeRecord 15} {l : List OutFrame} (h : takeHead nodes l = none) :
    ∀ g ∈ l, g.sendable nodes[g.dest].state = false := by
  induction l with
  | nil => simp
  | cons g l ih =>
    unfold takeHead at h
    split at h
    · cases h
    · rename_i hg
      rintro x hx
      rcases List.mem_cons.mp hx with rfl | hx
      · simpa using hg
      · exact ih h x hx

/-! ## The Service Stack -/

/-- Removal by tag takes the one entry out and keeps the order of the rest (R71). -/
theorem removeStacked_middle (s : State) (below above : List StackEntry) (e : StackEntry)
    (h : s.stack = below ++ e :: above) (hb : ∀ x ∈ below, x.entry.tag ≠ e.entry.tag) :
    (s.removeStacked e.entry.tag).stack = below ++ above := by
  rw [State.removeStacked_stack, h, List.eraseP_append_right]
  · simp
  · simpa using hb

/-- The look-up by tag finds the one stack entry that holds it. -/
theorem stackTagged_middle (s : State) (below above : List StackEntry) (e : StackEntry)
    (h : s.stack = below ++ e :: above) (hb : ∀ x ∈ below, x.entry.tag ≠ e.entry.tag) :
    s.stackTagged e.entry.tag = some e := by
  rw [State.stackTagged, h, List.find?_append]
  have : below.find? (fun x => decide (x.entry.tag = e.entry.tag)) = none := by
    simpa [List.find?_eq_none] using hb
  simp [this]

/-- A released mark changes no entry but its released flag, and no position (R73). -/
theorem markReleased_length (src : Source) (line : Line) (l : List StackEntry) :
    (markReleased src line l).length = l.length := by
  induction l with
  | nil => rfl
  | cons e l ih => unfold markReleased; split <;> simp [ih]

/-- The mark goes to the lowest non-stale, unreleased HELD entry of the line, and nowhere when there is none (R73). -/
theorem markReleased_spec (src : Source) (line : Line) (l : List StackEntry) :
    (∃ below e above, l = below ++ e :: above ∧ e.holdsLine src line = true ∧ e.entry.kind = .held ∧
        (∀ x ∈ below, ¬ (x.holdsLine src line = true ∧ x.entry.kind = .held)) ∧
        markReleased src line l = below ++ { e with released := true } :: above) ∨
      ((∀ x ∈ l, ¬ (x.holdsLine src line = true ∧ x.entry.kind = .held)) ∧ markReleased src line l = l) := by
  induction l with
  | nil => exact .inr ⟨by simp, rfl⟩
  | cons e l ih =>
    by_cases hc : e.holdsLine src line = true ∧ e.entry.kind = .held
    · refine .inl ⟨[], e, l, rfl, hc.1, hc.2, by simp, ?_⟩
      simp [markReleased, hc.1, hc.2]
    · have hm : markReleased src line (e :: l) = e :: markReleased src line l := by
        rw [markReleased, if_neg]
        simpa using hc
      rcases ih with ⟨below, x, above, rfl, hx, hk, hb, hr⟩ | ⟨hn, hr⟩
      · refine .inl ⟨e :: below, x, above, rfl, hx, hk, ?_, by rw [hm, hr]; rfl⟩
        rintro y hy
        rcases List.mem_cons.mp hy with rfl | hy
        · exact hc
        · exact hb y hy
      · refine .inr ⟨?_, by rw [hm, hr]⟩
        rintro y hy
        rcases List.mem_cons.mp hy with rfl | hy
        · exact hc
        · exact hn y hy

/-! ## Composite updates: what they leave alone -/

/-- Dismissing a node's work touches the Pending Table, the stack and the queue only. -/
theorem dismissWork_frame (s : State) (n : Node) :
    s.dismissWork n =
      { s with
        table := (s.dismissWork n).table, stack := (s.dismissWork n).stack, queue := (s.dismissWork n).queue } := rfl

/-- The loss of a node touches its record, the tables, the stack, the queue and the waiting conditions. -/
theorem loseNode_frame (s : State) (n : Node) (k : Nat) :
    ∃ nodes table stack queue raised, s.loseNode n k = { s with nodes, table, stack, queue, raised } := by
  simp only [State.loseNode, State.dismissWork, State.raise, State.removeDones, State.markStacked, State.mapPending,
    State.setNode]
  exact ⟨_, _, _, _, _, rfl⟩

/-- A counted fault touches the node records and, when the node is lost, the tables, the stack, the queue and the waiting
conditions. -/
theorem countFault_frame (s : State) (n : Node) :
    ∃ nodes table stack queue raised, s.countFault n = { s with nodes, table, stack, queue, raised } := by
  unfold State.countFault
  dsimp only
  split
  · split
    · exact loseNode_frame s n _
    · exact ⟨_, s.table, s.stack, s.queue, s.raised, rfl⟩
  · exact ⟨s.nodes, s.table, s.stack, s.queue, s.raised, rfl⟩

/-- A fault below the limit leaves an ACTIVE node ACTIVE with the raised count; one that reaches it loses the node (R135). -/
theorem countFault_active {s : State} {n : Node} (ha : s.nodes[n].state = .active) :
    s.countFault n =
      if s.faultLimit ≤ s.nodes[n].faults + 1 then s.loseNode n (s.nodes[n].faults + 1)
      else s.setNode n { s.nodes[n] with faults := s.nodes[n].faults + 1 } := by
  simp only [State.countFault, ha, if_true]

/-- The loss of a node writes its record (R136). -/
@[simp] theorem loseNode_nodes (s : State) (n : Node) (k : Nat) :
    (s.loseNode n k).nodes = s.nodes.set n { s.nodes[n] with state := .lost, admittedLimit := 0, faults := k } := rfl

/-- What a sequence fault of an ACTIVE node can do: below the fault limit it counts and posts; at the limit it loses the node,
uses a free value, and posts or leaves PROTOCOL_FAULT waiting (R123, R125, R146). -/
theorem sequenceFault_active {s : State} {n : Node} (atOnce : Bool) (ha : s.nodes[n].state = .active) :
    s.sequenceFault n atOnce =
      if s.faultLimit ≤ s.nodes[n].faults + 1 then
        if atOnce then
          State.postCondition { s.loseNode n (s.nodes[n].faults + 1) with freeCount := s.freeCount + 1 } (.protocolFault n)
        else .ok (State.raise { s.loseNode n (s.nodes[n].faults + 1) with freeCount := s.freeCount + 1 } (.protocolFault n))
      else (s.setNode n { s.nodes[n] with faults := s.nodes[n].faults + 1 }).postCondition (.protocolFault n) := by
  have hc := countFault_active ha
  by_cases h : s.faultLimit ≤ s.nodes[n].faults + 1
  · rw [if_pos h] at hc ⊢
    have hi : (s.countFault n).isActive n = false := by rw [hc]; simp [State.isActive]
    simp only [State.sequenceFault, hi, Bool.false_eq_true, if_false]
    rw [hc]
  · rw [if_neg h] at hc ⊢
    have hi : (s.countFault n).isActive n = true := by rw [hc]; simpa [State.isActive] using ha
    simp only [State.sequenceFault, hi, if_true]
    rw [hc]

/-! ## Commands of the Command Unit -/

/-- A command written while BUSY is lost and sets CMDLOST (R156). -/
theorem taken_busy {s : State} {c : Host.Outcome State Fault Refusal} (h : s.command ≠ .idle) :
    s.taken c = .next { s with cmdLost := true } := by
  simp [State.taken, State.busy, h]

/-- A command written while the Command Unit is idle is taken (R155). -/
theorem taken_idle {s : State} {c : Host.Outcome State Fault Refusal} (h : s.command = .idle) : s.taken c = c := by
  simp [State.taken, State.busy, h]

end Sys2Proof.Machine
end

