-- ==== Sys2Proof/Tests/Slice0.lean ====
section
/-! SUPPORT. Tests: the refused terms of WellFormed, at most two small tests for each command with results taken from the spec,
and, for every statement with hypotheses, a witness: concrete states and operands that meet them, clause by clause. -/

namespace Sys2Proof.Tests

open Sys2Proof.Machine

set_option maxRecDepth 10000

/-! ## Helpers -/

/-- A field of the state that a command leaves. -/
def after {α : Type} (o : Host.Outcome State Fault Refusal) (f : State → α) : Option α :=
  match o with
  | .next s => some (f s)
  | .fault _ => none
  | .refused _ => none

/-- RUN, nothing else touched. -/
def running : State := { State.reset with mode := .run }

/-- An ACTIVE record: expected 3, last acknowledged 2, 2 faults, limit 7. -/
def activeRecord : NodeRecord := ⟨.active, true, 7, 7, 3, 2, true, true, 2, 8⟩

/-- Node 3 ACTIVE with two pending and two stacked entries and a queued DONE; a local entry pending and one stacked. -/
def sample : State :=
  let s := ((((((running.setLineConfig 3 4 ⟨9, .edge, true, false⟩).setLineConfig 3 0 ⟨6, .held, true, false⟩).setLineConfig 3 2
    ⟨5, .held, true, false⟩).setLineConfig 15 1 ⟨14, .edge, true, false⟩).setLineConfig 15 6 ⟨1, .edge, true, false⟩).setNode 3
    activeRecord)
  ((s.setSlot 0 (some ⟨6, 3, 4, .edge, 1, [], false, false⟩)).setSlot 1 (some ⟨7, 3, 0, .held, 1, [0x11#8], false, false⟩)).setSlot
      2 (some ⟨8, 15, 1, .edge, 1, [0x08#8, 0x00#8], false, false⟩) |> fun s =>
    { s with
      lastTag := 8
      stack := [⟨⟨2, 3, 1, .edge, 1, [], false, false⟩, 2, false⟩, ⟨⟨3, 3, 2, .held, 1, [], false, false⟩, 5, false⟩,
        ⟨⟨4, 15, 3, .edge, 1, [0x00#8, 0x02#8], false, false⟩, 7, false⟩]
      queue := [⟨3, .done 5 .serviced⟩] }

/-- A DONE for a node that is not ACTIVE. -/
def deadDone : OutFrame := ⟨9, .done 0 .serviced⟩

/-- `sample` with a full queue. -/
def fullQueue : State := { sample with queue := List.replicate 16 deadDone }

/-- `sample` with a reply of node 3 in the holding buffer. -/
def holding (slot : SlotKind) (reply : Reply) : State := { sample with holding := some ⟨3, slot, reply⟩ }

/-- `sample` with the Link Engine in a state, for a POLL to node 3. -/
def linked (l : LinkState) (time : Nat) : State :=
  { sample with link := l, bitTimer := time, txBuffer := some (TxFrame.build 3 .poll 0x1A#8) }

/-! ## WellFormed -/

theorem test_wellFormed_refuses_a_command_write_as_register_write : wellFormed (.registerWrite 0x1#4 0x01#8) = false := by decide
theorem test_wellFormed_refuses_a_code_that_names_a_command : wellFormed (.badCmd 0x10#8) = false := by decide
theorem test_wellFormed_refuses_a_late_start_bit : wellFormed (.startBit 32) = false := by decide
theorem test_wellFormed_refuses_a_reply_cut_short : wellFormed (.replyReceived (wireBits [0x02#8, 0x00#8])) = false := by decide
theorem test_wellFormed_refuses_a_valid_reply_as_framing_error : wellFormed (.framingError (wireBits [0x00#8])) = false := by decide

/-! ## The host bus and the layouts -/

/-- R166: code 38h is SET_LINK; R170: both strobes low is neither a read nor a write. -/
theorem test_bus_access : busAccess false true false true 0x1#4 0x38#8 = some .setLink ∧ busAccess false false false true 0x1#4 0x38#8 = none ∧
    busAccess true true false true 0x1#4 0x38#8 = none ∧ busAccess false false true true 0x6#4 0x00#8 = some .claim ∧ busAccess false false true false 0x6#4 0x00#8 = none := by decide

theorem test_decode_has_no_words : decodeTableWord 8 0x01 = none := rfl

/-- R98, section 6.11.1: the bytes of the POLL to node 3. -/
theorem test_poll_bytes : (TxFrame.build 3 .poll (pollArg 2 true true false)).bytes = [0x13#8, 0x1A#8, 0x2E#8] := by decide

/-- R98: the EVENT of node 3 passes under seed 03h; under the seed of node 4 its check byte would be AFh. -/
theorem test_check_byte : checkPasses 3 [0x2D#8, 0x10#8, 0x5A#8, 0xB9#8] = true ∧ checkPasses 4 [0x2D#8, 0x10#8, 0x5A#8, 0xB9#8] = false ∧
    checkPasses 4 [0x2D#8, 0x10#8, 0x5A#8, 0xAF#8] = true := by decide

/-- Section 6.11.1: 2Dh, 10h, 5Ah is sequence 3, MORE clear, PULSE on line 4, payload 5Ah. -/
theorem test_read_reply : readReply (wireBits [0x2D#8, 0x10#8, 0x5A#8, 0xB9#8]) =
    .complete [0x2D#8, 0x10#8, 0x5A#8, 0xB9#8] (.event 3 false .pulse 4 [0x5A#8]) := by decide

/-- R104: 2Dh comes as 1, 0, 1, 1, 0, 1, 0, 0; a node that stops driving after three bits leaves the rest at 1. -/
theorem test_sample_order : Machine.sample [true, false, true, true, false, true, false, false] 0 = 0x2D#8 ∧
    Machine.sample [false, true, false] 0 = 0xFA#8 ∧ Machine.sample [] 1 = 0xFF#8 := by decide

/-- R53, R170: while nRST is low IRQ is released, LCK low and LDO high, in a slot in flight too. -/
theorem test_pins_under_reset : sample.irqPin true = false ∧ sample.irqPin false = true ∧ (linked .send 0).lck true 100 = true ∧
    (linked .send 0).lck false 100 = false ∧ (linked .send 0).ldo true 0 = false ∧ (linked .send 0).ldo false 0 = true := by decide

/-- Section 6.11.1: the shift register of the worked slot after 8 and 24 bit times of READ. -/
theorem test_shift_register :
    (linked .read 28).shiftContents (wireBits [0x2D#8]) = [0x2D#8] ∧
    (linked .read 28).shiftContents (wireBits [0x2D#8, 0x10#8, 0x5A#8]) = [0x2D#8, 0x10#8, 0x5A#8] := by decide

/-! ## One small test for each command -/

/-- Section 10.10, step 3: STAT reads 0Eh in STOPPING with CMDLOST, and CMDLOST is then clear. -/
theorem test_stat_read :
    after (exec .statRead { State.reset with mode := .stopping, command := .stop, cmdLost := true, link := .guard })
      (fun t => (t.readData, t.cmdLost)) = some (some 0x0E#8, false) := by decide

/-- R49, the example with pointer 3 and sources 1, 3 and 7 at one level: source 7 wins. -/
theorem test_claim_rotation :
    after (exec .claim (((({ running with rotation := Vector.replicate 16 3 }).setSlot 0
      (some ⟨1, 1, 0, .edge, 1, [], true, false⟩)).setSlot 1 (some ⟨2, 3, 0, .edge, 1, [], true, false⟩)).setSlot 2
      (some ⟨3, 7, 0, .edge, 1, [], true, false⟩))) (fun t => (t.readData, t.rotation[0])) = some (some 0x03#8, 7) := by decide

/-- R61: in CONFIG a claim returns 0 with reason NOT_RUNNING (3). -/
theorem test_claim_not_running :
    after (exec .claim State.reset) (fun t => (t.readData, t.readRegister 0x9#4)) = some (some 0x00#8, 0x03#8) := by decide

/-- R46: the upper four bits of a FLOOR write are ignored. -/
theorem test_floor_write : after (exec (.floorWrite 0x93#8) running) (·.floor) = some 3 := by decide

/-- R45: LVEN1 holds the enables of levels 8 to 15. -/
theorem test_lven_write :
    after (exec (.lvenWrite .lven1 0x7F#8) running) (fun t => (t.lven0, t.levelEnabled 15, t.levelEnabled 14)) =
      some (0xFF#8, false, true) := by decide

/-- Section 10.10, step 2: an ARG1 write in STOPPING is ignored and sets CMDLOST. -/
theorem test_register_write :
    after (exec (.registerWrite 0x3#4 0x14#8) { State.reset with mode := .stopping, command := .stop })
      (fun t => (t.arg1, t.cmdLost)) = some (0x00#8, true) := by decide

/-- R155, R157: code 00h gives BAD_CMD, 01h in RES. -/
theorem test_bad_cmd : after (exec (.badCmd 0x00#8) running) (·.readRegister 0x1#4) = some 0x01#8 := by decide

/-- Section 11.1, step 7: after START STAT reads 01h. -/
theorem test_start : after (exec .start State.reset) (·.statByte) = some 0x01#8 := by decide

/-- R160: STOP with a slot in flight goes to STOPPING with BUSY; with the link idle it is PAUSED at once. -/
theorem test_stop : after (exec .stop { running with link := .send }) (fun t => (t.mode, t.busy)) = some (.stopping, true) ∧
    after (exec .stop running) (fun t => (t.mode, t.busy)) = some (.paused, false) := by decide

theorem test_resume : after (exec .resume running) (·.res) = some .badMode ∧
    after (exec .resume { running with mode := .paused }) (·.mode) = some .run := by decide

/-- R162, R111: RESTART cuts the slot off to GUARD and keeps join and the configured limit. -/
theorem test_restart : after (exec .restart (linked .send 0)) (fun t => (t.link, t.mode, t.nodes[(3 : Node)])) =
    some (.guard, .config, ⟨.absent, true, 7, 0, 0, 0, false, false, 0, 0⟩) := by decide

/-- R41, R162: the last step of the clear. -/
theorem test_restart_clear_step :
    after (exec .restartClearStep { State.reset with command := .restart 31, lastTag := 8 }) (fun t => (t.lastTag, t.busy)) =
      some (63, false) := by decide

/-- R85: a HELD unreleased entry below the top is reposted under a new tag while the old one is live; the top stays. -/
theorem test_complete_reposts :
    after (exec .complete { sample with arg0 := 0x03#8, lastTag := 2 })
      (fun t => (t.arg1, t.topLevel, t.stack.length, (t.pendingTagged 5).map (·.2.repost))) =
        some (0x05#8, some 7, 2, some true) := by decide

/-- R82, case L, with the queue full. -/
theorem test_complete_top : after (exec .completeTop fullQueue) (fun t => (t.res, t.arg0, t.stack.length)) =
    some (.ok, 0x04#8, 2) := by decide

/-- R89: a tag on the stack gives IN_SERVICE. -/
theorem test_discard : after (exec .discard { sample with arg0 := 0x04#8 }) (·.res) = some .inService ∧
    after (exec .discard { sample with arg0 := 0x06#8 }) (·.queue) = some [⟨3, .done 5 .serviced⟩, ⟨3, .done 4 .discarded⟩] := by decide

/-- R164, R166: tag 7 is pending: level 6, source 3, HELD, line 0, count 1. -/
theorem test_get_entry : after (exec .getEntry { sample with arg0 := 0x07#8 }) (fun t => (t.arg1, t.arg2, t.arg3)) =
    some (0x61#8, 0x38#8, 0x01#8) := by decide

/-- R12: HELD with auto on gives BAD_ARG; a kind change on an occupied line gives IN_USE. -/
theorem test_set_line :
    after (exec .setLine { running with arg3 := 0x07#8 }) (·.res) = some .badArg ∧
    after (exec .setLine { sample with arg0 := 0x03#8, arg1 := 0x04#8, arg2 := 0x09#8, arg3 := 0x03#8 }) (·.res) =
      some .inUse := by decide

/-- R18: line (3,2) is HELD at level 5, enabled, in service once. -/
theorem test_get_line : after (exec .getLine { sample with arg0 := 0x03#8, arg1 := 0x02#8 }) (fun t => (t.arg2, t.arg3)) =
    some (0x35#8, 0x10#8) := by decide

/-- Section 11.1, step 5: ARG1 = 0Ch is join yes and limit 4. -/
theorem test_set_node :
    after (exec .setNode { State.reset with arg0 := 0x03#8, arg1 := 0x0C#8 })
      (fun t => (t.nodes[(3 : Node)].join, t.nodes[(3 : Node)].configLimit)) = some (true, 4) := by decide

/-- R166: ACTIVE, join, 8 declared lines; sequences 3 and 2, ack valid, new-entry; limits 7 and 7; 2 faults. -/
theorem test_get_node : after (exec .getNode { sample with arg0 := 0x03#8 }) (fun t => (t.arg0, t.arg1, t.arg2, t.arg3)) =
    some (0x8A#8, 0xD3#8, 0x77#8, 0x02#8) := by decide

/-- R141: a reply wait of 32 is out of range, and RUN gives BAD_MODE. -/
theorem test_set_link :
    after (exec .setLink { State.reset with arg1 := 0x20#8, arg2 := 0x03#8 }) (·.res) = some .badArg ∧
    after (exec .setLink { running with arg1 := 0x14#8, arg2 := 0x03#8 }) (·.res) = some .badMode := by decide

/-- R138: DONE frames of the node leave the queue, an EJECT joins it, and the held credits are 0. -/
theorem test_retire : after (exec .retire { sample with arg0 := 0x03#8 }) (fun t => (t.queue, t.heldCredits 3, t.poolCount)) =
    some ([⟨3, .eject⟩], 0, 4) := by decide

/-- R39: the step at slot 2 passes over the local entry. -/
theorem test_retire_walk_step :
    after (exec .retireWalkStep { sample with command := .retire 3 1 }) (fun t => t.table[(1 : Fin 32)].isNone) = some true ∧
    after (exec .retireWalkStep { sample with command := .retire 3 2 }) (fun t => t.table[(2 : Fin 32)].isNone) = some false := by
  decide

/-- R170: 4 REFCLK periods are a pin reset. -/
theorem test_pin_reset : after (exec (.pinReset 4) sample) id = some State.reset := by decide

/-- Section 11.1, slot a: the first slot after START probes node 0. -/
theorem test_scheduler_choice :
    after (exec .schedulerChoice (running.setNode 0 { NodeRecord.reset with join := true }))
      (fun t => (t.txBuffer.map (·.bytes.take 2), t.ring, t.discovery)) = some (some [0x20#8, 0x00#8], 15, 0) := by decide

/-- R102, R134: the transmission of an ADMIT takes its node to ACTIVE and raises NODE_JOINED. -/
theorem test_frame_transmitted :
    after (exec .frameTransmitted { (running.setNode 2 { activeRecord with state := .joining }) with
      link := .send, txBuffer := some (TxFrame.build 2 .admitFrame 0x04#8) })
      (fun t => (t.link, t.nodes[(2 : Node)].state, t.raised)) = some (.guard, .active, [.nodeJoined 2]) := by decide

/-- Section 11.3, step 1: no reply at 2 faults with fault limit 3 loses node 3, its HELD entry and its DONE. -/
theorem test_reply_wait_expiry :
    after (exec .replyWaitExpiry (linked .wait 25))
      (fun t => (t.nodes[(3 : Node)].state, t.poolCount, t.queue, t.raised, t.bitTimer)) =
        some (.lost, 3, [], [.nodeLost 3], 37) := by decide

/-- Section 6.11.1: the good EVENT of node 3 enters the holding buffer; with a full buffer it is dropped with RX_OVERRUN. -/
theorem test_reply_received :
    after (exec (.replyReceived (wireBits [0x2D#8, 0x10#8, 0x5A#8, 0xB9#8])) (linked .read 28)) (fun t => (t.holding, t.bitTimer)) =
      some (some ⟨3, .poll, .event 3 false .pulse 4 [0x5A#8]⟩, 60) ∧
    after (exec (.replyReceived (wireBits [0x2D#8, 0x10#8, 0x5A#8, 0xB9#8])) { linked .read 28 with holding := some ⟨1, .poll, .idle⟩ })
      (fun t => (t.holding, t.raised)) = some (some ⟨1, .poll, .idle⟩, [.rxOverrun 3]) := by decide

/-- Section 6.10: with a start bit at k = 1 a framing error ends 25 + 1 + 40 bit times after the start of its slot. -/
theorem test_drain_end :
    after (exec .drainEnd { linked .drain 34 with shiftReg := [0x03#8] }) (fun t => (t.link, t.bitTimer, t.raised)) =
      some (.guard, 66, [.linkFault 3, .nodeLost 3]) := by decide

theorem test_guard_end : after (exec .guardEnd (linked .guard 25)) (fun t => (t.link, t.txBuffer)) = some (.idle, none) := by decide

/-- R124, row 2a: a PULSE merges into the pending entry; R123: the sequence moves on. -/
theorem test_admission_take_merges :
    after (exec .admissionTake (holding .poll (.event 3 false .pulse 4 [0x5A#8])))
      (fun t => (t.table[(0 : Fin 32)].map fun e => (e.count, e.payload), t.nodes[(3 : Node)].expected)) =
        some (some (2, [0x5A#8]), 4) := by decide

/-- R124, row 5c: a RELEASE for the line in service marks its entry released. -/
theorem test_admission_take_releases :
    after (exec .admissionTake (holding .poll (.event 3 false .release 2 []))) (fun t => t.stack.map (·.released)) =
      some [false, true, false] := by decide

/-- Section 9.8: LINK_FAULT for node 9 joins a set: 00h 02h; here NODE_LOST for node 9 merges into the set of node 3. -/
theorem test_local_posting :
    after (exec (.localPosting (.nodeLost 9)) { sample with raised := [.nodeLost 9] })
      (fun t => t.table[(2 : Fin 32)].map fun e => (e.count, e.payload)) = some (some (2, [0x08#8, 0x02#8])) := by decide

theorem test_start_bit : after (exec (.startBit 12) (linked .wait 25)) (fun t => (t.link, t.bitTimer)) = some (.read, 37) ∧
    after (exec (.startBit 13) (linked .wait 25)) (·.link) = some .wait := by decide

/-- R105: event kind 11 is found at the end of the second byte. -/
theorem test_framing_error :
    after (exec (.framingError (wireBits [0x01#8, 0x03#8])) (linked .read 26)) (fun t => (t.link, t.bitTimer)) = some (.drain, 42) := by decide

/-! ## Witnesses of hypotheses -/

theorem witness_StepTakesTheFrontCommand :
    { sample with pending := [.claim, .statRead] }.pending = .claim :: [.statRead] ∧ sample.pending = [] := by decide

theorem witness_HappeningsOutOfPlace :
    sample.clearing = none ∧ sample.retiring = none ∧ State.reset.mode ≠ .run ∧ (linked .send 0).link ≠ .idle ∧
      sample.link ≠ .send ∧ sample.link ≠ .wait ∧ (linked .wait 25).slotWait < 13 ∧ sample.link ≠ .read ∧ sample.link ≠ .drain ∧
      sample.link ≠ .guard ∧ sample.holding = none ∧ { sample with command := .retire 3 0 }.retiring ≠ none ∧
      LocalCondition.nodeLost 3 ∉ sample.raised := by decide

theorem witness_EveryStepRunsAndKeepsSafety : sample.Safe := by constructor <;> decide

theorem witness_StepKeeps : sample.StackOrdered ∧ sample.QueueBounded ∧ sample.TagsUnique ∧ sample.PoolBounded ∧
    (after (step { sample with pending := [.claim] }) id).isSome = true := by decide

theorem witness_ModeChanges : wellFormed .start = true ∧
    after (exec .start State.reset) id = some running ∧ running.mode ≠ State.reset.mode := by decide

theorem witness_ConfigurationChanges : wellFormed .claim = true ∧ (after (exec .claim sample) id).isSome = true := by decide

theorem witness_RotationMoves : wellFormed .claim = true ∧
    after (exec .claim { sample with rotation := Vector.replicate 16 2 }) (fun t => t.rotation[(14 : Level)]) = some 15 := by decide

theorem witness_StatRead : sample.StackOrdered ∧ sample.QueueBounded ∧ sample.PoolBounded := by decide

theorem witness_RegisterWrites : sample.command = .idle ∧ { sample with command := .stop }.command ≠ .idle ∧
    2 ≤ (0x2#4).toNat ∧ (0x5#4).toNat ≤ 5 ∧ (0xD#4).toNat ∈ [0x0, 0x6, 0x7, 0x8, 0x9, 0xA, 0xB, 0xD] ∧
    sample.res = .ok ∧ { sample with res := .noNode }.res = .noNode := by decide

theorem witness_HostBus : busAccess false false true true 0x0#4 0x00#8 = some .statRead ∧
    busAccess false false true true 0x6#4 0x00#8 = some .claim ∧ (after (exec .claim sample) id).isSome = true := by decide

theorem witness_LinkPins : (linked .send 0).link = .send ∧ (linked .send 0).txBuffer = some (TxFrame.build 3 .poll 0x1A#8) ∧
    (TxFrame.build 3 .poll 0x1A#8).wire[0]? = some false ∧ (linked .guard 25).link = .guard ∧
    0 < (linked .read 26).slotDiv + 1 := by decide

theorem witness_CodesNameTheCommands :
    (0x00#8).toNat ∉ [0x01, 0x02, 0x03, 0x04, 0x10, 0x11, 0x12, 0x13, 0x20, 0x21, 0x30, 0x31, 0x32, 0x38] ∧
      sample.command = .idle ∧ { sample with command := .restart 0 }.command ≠ .idle := by decide

theorem witness_FloorAndLevelEnables : (∃ e ∈ sample.candidates, sample.lineLevel e = 9) ∧ sample.topLevel = some 7 ∧
    (∃ e ∈ { sample with stack := [] }.candidates, { sample with stack := [] }.lineLevel e = 6) ∧
      (after (exec .restart sample) id).isSome = true := by decide

theorem witness_ClaimWindowAndTop : State.reset.window = .null .untouched ∧
    { sample with window := .claimed ⟨3, 4, 9, 15, true, false, true, false, [0x5A#8, 0x01#8]⟩ }.window =
      .claimed ⟨3, 4, 9, 15, true, false, true, false, [0x5A#8, 0x01#8]⟩ ∧ State.reset.stack = [] ∧
      sample.stack = sample.stack.dropLast ++ [⟨⟨4, 15, 3, .edge, 1, [0x00#8, 0x02#8], false, false⟩, 7, false⟩] ∧
      sample.StackOrdered := by decide

theorem witness_Winner : sample.LinesUnique ∧ sample.winner = some (2, ⟨8, 15, 1, .edge, 1, [0x08#8, 0x00#8], false, false⟩) ∧
    State.reset.winner = none := by decide

theorem witness_Irq : State.reset.mode = .config ∧ sample.irq = true := by decide

theorem witness_ClaimThatTakesNothing : State.reset.mode = .config ∧ running.mode ≠ .config ∧ running.candidates = [] ∧
    8 ≤ { running with stack := List.replicate 8 ⟨⟨1, 0, 0, .edge, 1, [], false, false⟩, 0, false⟩ }.stack.length ∧
    (fullQueue.setSlot 2 none).winner = some (0, ⟨6, 3, 4, .edge, 1, [], false, false⟩) ∧ fullQueue.mode ≠ .config ∧
    fullQueue.stack.length < 8 ∧ 16 ≤ fullQueue.queue.length ∧ fullQueue.nodes[(3 : Node)].state = .active ∧
    ((fullQueue.setSlot 2 none).setLineConfig 3 4 ⟨9, .edge, true, true⟩).lineMap[(3 : Source)][(4 : Line)].auto = true := by decide

theorem witness_OrdinaryClaim : sample.mode ≠ .config ∧ sample.stack.length < 8 ∧
    sample.winner = some (2, ⟨8, 15, 1, .edge, 1, [0x08#8, 0x00#8], false, false⟩) ∧
    sample.lineMap[(15 : Source)][(1 : Line)].auto = false ∧ sample.StackOrdered := by decide

/-- `sample` with auto on for (3,4) and (15,1). -/
def autoSample : State := (sample.setLineConfig 3 4 ⟨9, .edge, true, true⟩).setLineConfig 15 1 ⟨14, .edge, true, true⟩

theorem witness_AutoClaim : autoSample.mode ≠ .config ∧ autoSample.stack.length < 8 ∧
    autoSample.winner = some (2, ⟨8, 15, 1, .edge, 1, [0x08#8, 0x00#8], false, false⟩) ∧
    (autoSample.setSlot 2 none).winner = some (0, ⟨6, 3, 4, .edge, 1, [], false, false⟩) ∧
    autoSample.lineMap[(3 : Source)][(4 : Line)].auto = true ∧ autoSample.lineMap[(15 : Source)][(1 : Line)].auto = true ∧
    autoSample.nodes[(3 : Node)].state = .active ∧ autoSample.queue.length < 16 ∧
    ((autoSample.setSlot 2 none).setNode 3 { activeRecord with state := .lost }).winner =
      some (0, ⟨6, 3, 4, .edge, 1, [], false, false⟩) := by decide

theorem witness_CompletionEndsAnEntry : sample.command = .idle ∧ sample.mode ≠ .config ∧ sample.TagsUnique ∧
    sample.stack = [⟨⟨2, 3, 1, .edge, 1, [], false, false⟩, 2, false⟩, ⟨⟨3, 3, 2, .held, 1, [], false, false⟩, 5, false⟩] ++
      ⟨⟨4, 15, 3, .edge, 1, [0x00#8, 0x02#8], false, false⟩, 7, false⟩ :: [] ∧
    sample.stack = [] ++ ⟨⟨2, 3, 1, .edge, 1, [], false, false⟩, 2, false⟩ :: sample.stack.tail ∧
    { sample with arg0 := 0x02#8 }.arg0 = BitVec.ofNat 8 (2 : Tag).val ∧ (3 : Source) = (3 : Node).castSucc ∧
    { sample with queue := List.replicate 15 deadDone }.queue.length < 16 ∧ 16 ≤ fullQueue.queue.length := by decide

theorem witness_CompletionReposts : sample.NextPlace 3 9 ∧
    sample.stack.take 2 = [⟨⟨2, 3, 1, .edge, 1, [], false, false⟩, 2, false⟩] ++
      ⟨⟨3, 3, 2, .held, 1, [], false, false⟩, 5, false⟩ :: [] ∧
    { sample with stack := sample.stack.take 2 }.NextPlace 3 9 ∧ { sample with stack := sample.stack.take 2 }.TagsUnique ∧
    { sample with arg0 := 0x03#8 }.arg0 = BitVec.ofNat 8 (3 : Tag).val := by decide

theorem witness_CompletionRefusals : State.reset.command = .idle ∧ State.reset.mode = .config ∧ sample.mode ≠ .config ∧
    sample.arg0 = 0x00#8 ∧ (∀ e ∈ sample.stack, BitVec.ofNat 8 e.entry.tag.val ≠ 0x40#8) ∧ running.stack = [] := by decide

theorem witness_Discard : sample.command = .idle ∧ sample.TagsUnique ∧ State.reset.mode = .config ∧ State.reset.TagsUnique ∧
    (∀ t ∈ sample.liveTags, BitVec.ofNat 8 t.val ≠ 0x40#8) ∧ (∃ e ∈ sample.stack, BitVec.ofNat 8 e.entry.tag.val = 0x04#8) ∧
    sample.table[(0 : Fin 32)] = some ⟨6, 3, 4, .edge, 1, [], false, false⟩ ∧
    sample.table[(2 : Fin 32)] = some ⟨8, 15, 1, .edge, 1, [0x08#8, 0x00#8], false, false⟩ ∧ sample.queue.length < 16 ∧
    fullQueue.TagsUnique ∧ fullQueue.table[(0 : Fin 32)] = some ⟨6, 3, 4, .edge, 1, [], false, false⟩ := by decide

theorem witness_GetEntry : State.reset.ConfigEmpty ∧ State.reset.mode = .config ∧ State.reset.command = .idle ∧
    State.reset.TagsUnique ∧ (∀ t ∈ sample.liveTags, BitVec.ofNat 8 t.val ≠ 0x00#8) ∧
    BitVec.ofNat 8 (6 : Tag).val = { sample with arg0 := 0x06#8 }.arg0 := by decide

theorem witness_SetLine : { sample with command := .stop }.command ≠ .idle ∧ 16 ≤ (0x10#8).toNat ∧ 8 ≤ (0x08#8).toNat ∧
    (0x0F#8).toNat = (15 : Source).val ∧ (0x07#8).toNat = (7 : Line).val ∧ (0x02#8).getLsbD 1 = true ∧
    (0x06#8).getLsbD 2 = true ∧ (∃ e ∈ sample.pendingEntries, e.source = 3 ∧ e.line = 4) ∧
    (∃ e ∈ sample.stack, e.entry.source = 3 ∧ e.entry.line = 2) ∧
    (∀ e ∈ sample.pendingEntries, ¬ (e.source = 3 ∧ e.line = 5)) ∧
    (∀ e ∈ sample.stack, ¬ (e.entry.source = 3 ∧ e.entry.line = 5)) ∧ sample.lineMap[(3 : Source)][(4 : Line)].kind = .edge := by decide

theorem witness_GetLine : sample.linePending 3 0 = true ∧ sample.inService 3 2 = 1 ∧ sample.lineReleased 3 2 = false ∧
    sample.lineStale 3 0 = false ∧ (0x03#8).toNat = (3 : Source).val ∧ 16 ≤ (0x10#8).toNat ∧ 8 ≤ (0x08#8).toNat := by decide

theorem witness_SetNode : sample.command = .idle ∧ 15 ≤ (0x0F#8).toNat ∧ (0x08#8).toNat % 8 = 0 ∧
    (0x0E#8).toNat = (14 : Node).val ∧ (0x01#8).toNat % 8 ≠ 0 := by decide

theorem witness_GetNode : 15 ≤ (0x0F#8).toNat ∧ (0x03#8).toNat = (3 : Node).val ∧ sample.nodes[(3 : Node)].state = .active ∧
    sample.nodes[(0 : Node)].state = .absent := by decide

theorem witness_SetLink : sample.mode ≠ .config ∧ sample.mode ≠ .paused ∧ State.reset.mode = .config ∧ (0x03#8).toNat < 4 ∧
    31 < (0x20#8).toNat ∧ (0x00#8).toNat = 0 ∧ 7 < (0x08#8).toNat ∧ 4 ≤ (0x04#8).toNat ∧ (0x1F#8).toNat ≤ 31 ∧
    1 ≤ (0x01#8).toNat ∧ (0x07#8).toNat ≤ 7 := by decide

theorem witness_StartStopAndResume : State.reset.mode = .config ∧ sample.mode = .run ∧ { sample with mode := .paused }.mode = .paused ∧
    (linked .guard 25).link ≠ .idle ∧ State.reset.mode ≠ .run := by decide

/-- `sample` with a COMMAND_DONE pending. -/
def doneSample : State := sample.setSlot 3 (some ⟨9, 15, 6, .edge, 15, [], false, false⟩)

theorem witness_EndOfStopAndRetire : sample.LinesUnique ∧ sample.mode = .run ∧ sample.link = .idle ∧ sample.raised = [] ∧
    { linked .guard 25 with mode := .stopping, command := .stop }.LinesUnique ∧
    { sample with command := .retire 3 31 }.LinesUnique ∧ running.lineMap[(15 : Source)][(6 : Line)].enable = false ∧
    sample.lineMap[(15 : Source)][(6 : Line)].enable = true ∧ doneSample.LinesUnique ∧
    doneSample.table[(3 : Fin 32)] = some ⟨9, 15, 6, .edge, 15, [], false, false⟩ ∧
    (∀ e ∈ sample.pendingEntries, ¬ (e.source = 15 ∧ e.line = 6)) ∧ sample.NextPlace 3 9 := by decide

theorem witness_EndOfStopPostsWaiting : { sample with raised := [.nodeLost 3] }.raised = .nodeLost 3 :: [] ∧
    (after (exec (.localPosting (.nodeLost 3)) { sample with raised := [.nodeLost 3] }) id).isSome = true ∧
    (after (exec (.localPosting (.nodeLost 3)) { linked .guard 25 with mode := .stopping, raised := [.nodeLost 3] }) id).isSome =
      true := by decide

theorem witness_RestartBegins : sample.command = .idle ∧ sample.link = .idle ∧ (linked .wait 25).link ≠ .idle := by decide

theorem witness_WalkSteps : (1 : Fin 32).val = (0 : Fin 32).val + 1 ∧ { sample with command := .restart 0 }.command = .restart 0 ∧
    (31 : Fin 32).val = (30 : Fin 32).val + 1 ∧ sample.table[(0 : Fin 32)].map (·.source) = some (3 : Node).castSucc ∧
    sample.table[(3 : Fin 32)] = none ∧ sample.table[(2 : Fin 32)].map (·.source) = some 15 := by decide

theorem witness_RestartLeaves :
    { sample with pending := .restart :: List.replicate 32 .restartClearStep }.pending =
      .restart :: (List.replicate 32 .restartClearStep ++ []) := by decide

theorem witness_PinReset : 4 ≤ 4 ∧ 3 < 4 := by decide

theorem witness_Retire : State.reset.mode = .config ∧ sample.mode ≠ .config ∧ 15 ≤ (0x0F#8).toNat ∧
    (0x03#8).toNat = (3 : Node).val ∧ sample.nodes[(0 : Node)].state = .absent ∧ sample.nodes[(3 : Node)].state ≠ .absent ∧
    16 ≤ fullQueue.queue.length ∧ { sample with queue := List.replicate 15 deadDone }.queue.length < 16 := by decide

theorem witness_RetireWalk : running.lineMap[(15 : Source)][(6 : Line)].enable = false ∧
    { running with command := .retire 3 0, pending := List.replicate 32 .retireWalkStep }.pending =
      List.replicate 32 .retireWalkStep ++ [] := by decide

theorem witness_ChoiceTakesOutboundFrames :
    { sample with queue := deadDone :: ⟨3, .done 5 .serviced⟩ :: [⟨3, .eject⟩] }.queue =
      [deadDone] ++ ⟨3, .done 5 .serviced⟩ :: [⟨3, .eject⟩] ∧ sample.mode = .run ∧ sample.link = .idle ∧ sample.outCount < 2 ∧
    sample.nodes[deadDone.dest].state ≠ .active ∧ deadDone.body.kind = .done ∧ sample.nodes[(3 : Node)].state = .active ∧
    2 ≤ { sample with outCount := 2 }.outCount := by decide

theorem witness_BurstAndRingPolls : { sample with outCount := 2, burst := .armed 3 }.burst = .armed 3 ∧
    sample.nodes[(3 : Node)].state = .active ∧ sample.nodes[(4 : Node)].state ≠ .active ∧ sample.burst = .clear ∧
    { sample with ring := 2 }.ring.val < (3 : Node).val ∧
    (∀ m : Node, sample.nodes[m].state = .active → 3 ≤ m) ∧ running.queue = [] := by decide

theorem witness_PassEnds : sample.ring = 14 ∧ (∀ m : Node, sample.nodes[m].state = .active → sample.ring ≠ 15 ∧ m.val ≤ sample.ring.val) ∧
    (∀ n : Node, ¬ (sample.nodes[n].join = true ∧ (sample.nodes[n].state = .absent ∨ sample.nodes[n].state = .lost))) ∧
    (sample.setNode 14 { NodeRecord.reset with join := true }).nodes[(14 : Node)].join = true ∧
    (∀ n : Node, running.nodes[n].state ≠ .active) ∧ nodeDistance 14 14 = 14 := by decide

theorem witness_PollCarries : { sample with queue := [] }.PoolBounded ∧
    after (exec .schedulerChoice { sample with queue := [] }) (fun t => (t.link, t.txBuffer.map fun f => (f.dest, f.kind))) =
      some (.send, some (3, .poll)) := by decide

theorem witness_CheckByte : (0x03#8 : Byte) ≠ 0x04#8 ∧ (3 : Node) ≠ 4 ∧
    checkPasses 3 [0x2D#8, 0x10#8, 0x5A#8, 0xB9#8] = true := by decide

theorem witness_Replies : (0xFC#8).toNat % 4 = 0 ∧ (0x02#8).toNat % 4 = 2 ∧ (0x03#8).toNat % 4 = 3 ∧ (0x61#8).toNat % 4 = 1 ∧
    (0x61#8).toNat / 32 % 4 = 3 ∧ (0x01#8).toNat / 32 % 4 = 0 ∧ (0x21#8).toNat / 32 % 4 = 1 ∧ (0x41#8).toNat / 32 % 4 = 2 := by
  decide

theorem witness_Transmission : (linked .send 0).link = .send ∧ (linked .send 0).txBuffer = some (TxFrame.build 3 .poll 0x1A#8) ∧
    (TxFrame.build 3 .admitFrame 0x04#8).kind = .admitFrame ∧ sample.nodes[(3 : Node)].state ≠ .joining ∧
    (sample.setNode 3 { activeRecord with state := .joining }).nodes[(3 : Node)].state = .joining ∧
    (sample.setNode 3 { activeRecord with state := .leaving }).nodes[(3 : Node)].state = .leaving := by decide

theorem witness_LinkEngine : [true, false].length < 8 ∧ (linked .wait 25).link = .wait ∧ 12 ≤ (linked .wait 25).slotWait ∧ (linked .read 26).link = .read ∧
    readReply (wireBits [0x01#8, 0x03#8]) = .framing [0x01#8, 0x03#8] ∧ (linked .guard 25).link = .guard ∧
    (linked .guard 25).mode ≠ .stopping := by decide

theorem witness_GoodReply : (linked .read 28).link = .read ∧ (TxFrame.build 3 .poll 0x1A#8).kind = .poll ∧
    readReply (wireBits [0x2D#8, 0x10#8, 0x5A#8, 0xB9#8]) = .complete [0x2D#8, 0x10#8, 0x5A#8, 0xB9#8] (.event 3 false .pulse 4 [0x5A#8]) ∧
    checkPasses 3 [0x2D#8, 0x10#8, 0x5A#8, 0xB9#8] = true ∧ (linked .read 28).holding = none ∧
    { linked .read 28 with holding := some ⟨1, .poll, .idle⟩ }.holding = some ⟨1, .poll, .idle⟩ := by decide

theorem witness_SlotOutcomes : (linked .wait 25).txBuffer = some (TxFrame.build 3 .poll 0x1A#8) ∧
    sample.nodes[(3 : Node)] = activeRecord ∧ activeRecord.state = .active ∧ { sample with faultLimit := 4 }.faultLimit = 4 ∧
    activeRecord.faults + 1 < 4 ∧ sample.faultLimit ≤ activeRecord.faults + 1 ∧
    readReply (wireBits [0x00#8, 0x00#8]) = .complete [0x00#8, 0x00#8] .idle ∧ checkPasses 3 [0x00#8, 0x00#8] = false ∧
    (linked .drain 34).link = .drain ∧ (TxFrame.build 3 .probe 0x00#8).kind = .probe := by decide

theorem witness_SlotLength : (linked .send 0).link = .send ∧ 12 ≤ (linked .send 0).slotWait ∧
    readReply (wireBits [0x2D#8, 0x10#8, 0x5A#8, 0xB9#8]) = .complete [0x2D#8, 0x10#8, 0x5A#8, 0xB9#8] (.event 3 false .pulse 4 [0x5A#8]) ∧
    readReply (wireBits [0x03#8]) = .framing [0x03#8] ∧ (TxFrame.build 3 .done 0x05#8).kind ≠ .poll := by decide

theorem witness_RepliesThatReachNoDecision : (holding .poll .idle).holding = some ⟨3, .poll, .idle⟩ ∧
    (holding .poll .idle).retiring = none ∧ sample.nodes[(3 : Node)] = activeRecord ∧
    (holding .poll (.event 2 true .pulse 0 [])).holding = some ⟨3, .poll, .event 2 true .pulse 0 []⟩ ∧
    activeRecord.expected - 1 = 2 ∧ activeRecord.ackValid = true ∧ (4 : Seq) ≠ activeRecord.expected ∧
    (4 : Seq) ≠ activeRecord.expected - 1 ∧ activeRecord.faults + 1 < 4 ∧ sample.faultLimit ≤ activeRecord.faults + 1 := by decide

/-- A sequence fault of node 3 with PROTOCOL_FAULT enabled, one pending for node 9, and NODE_LOST enabled. -/
def faulty : State := (({ sample with faultLimit := 4 }.setLineConfig 15 4 ⟨1, .edge, true, false⟩).setSlot 5
  (some ⟨9, 15, 4, .edge, 1, [0x00#8, 0x02#8], false, false⟩))

/-- R125: below the fault limit PROTOCOL_FAULT is posted with the judgment; here it merges. The line is disabled in `sample`. -/
theorem witness_SequenceFault :
    faulty.LinesUnique ∧ activeRecord.faults + 1 < faulty.faultLimit ∧ faulty.lineMap[(15 : Source)][(4 : Line)].enable = true ∧
    sample.lineMap[(15 : Source)][(4 : Line)].enable = false ∧
    (∀ k : Fin 8, ((0x08#8 : Byte).getLsbD k = true ↔ (3 : Node).val = k) ∧ ((0x00#8 : Byte).getLsbD k = true ↔ (3 : Node).val = 8 + k)) ∧
    after (exec .admissionTake { faulty with holding := some ⟨3, .poll, .event 4 true .pulse 0 []⟩ })
      (fun t => (t.table[(5 : Fin 32)].map (·.payload), t.raised)) = some (some [0x08#8, 0x02#8], []) := by decide

/-- `faulty` at the fault limit, with no PROTOCOL_FAULT pending. -/
def lossy : State := { faulty.setSlot 5 none with faultLimit := 3 }

/-- R125, R146: at the fault limit PROTOCOL_FAULT is posted with the judgment, NODE_LOST still waiting, or both wait. -/
theorem witness_SequenceFaultAtLoss : lossy.faultLimit ≤ activeRecord.faults + 1 ∧ lossy.nodes[(3 : Node)] = activeRecord ∧
    after (settle (lossy.sequenceFault 3 true)) (fun t => (t.table[(1 : Fin 32)].map (·.payload), t.raised)) =
      some (some [0x08#8, 0x00#8], [.nodeLost 3]) ∧
    after (settle (lossy.sequenceFault 3 false)) (fun t => (t.table[(1 : Fin 32)], t.raised)) =
      some (none, [.nodeLost 3, .protocolFault 3]) := by decide

theorem witness_EventsWithoutEffect : (holding .poll (.event 3 true .assert 0 [])).holding = some ⟨3, .poll, .event 3 true .assert 0 []⟩ ∧
    (holding .poll (.event 3 true .assert 0 [])).retiring = none ∧ (0 : Line).val < activeRecord.declared.val ∧
    (∃ e ∈ sample.pendingEntries, e.source = 3 ∧ e.line = 0 ∧ e.stale = false) ∧
    sample.lineMap[(3 : Source)][(0 : Line)] = ⟨6, .held, true, false⟩ ∧
    sample.lineMap[(3 : Source)][(5 : Line)].enable = false ∧ 16 ≤ fullQueue.queue.length ∧
    (sample.setNode 3 { activeRecord with admittedLimit := 5 }).heldCredits 3 = 5 ∧
    (∀ e ∈ sample.pendingEntries, ¬ (e.source = 3 ∧ e.line = 2)) ∧
    (∀ e ∈ { sample with stack := [] }.stack, e.entry.stale = true) ∧ ¬ (7 : Line).val < (7 : Fin 9).val := by decide

theorem witness_EventsChangeTheTables : sample.LinesUnique ∧ sample.heldCredits 3 = 5 ∧ sample.poolCount = 4 ∧
    sample.nodes[(3 : Node)].admittedLimit = 7 ∧ sample.NextPlace 3 9 ∧
    sample.lineMap[(3 : Source)][(4 : Line)] = ⟨9, .edge, true, false⟩ ∧
    sample.table[(0 : Fin 32)] = some ⟨6, 3, 4, .edge, 1, [], false, false⟩ ∧
    sample.table[(1 : Fin 32)] = some ⟨7, 3, 0, .held, 1, [0x11#8], false, false⟩ := by decide

theorem witness_EventsThatInsert :
    (∀ e ∈ (sample.setSlot 0 none).pendingEntries, ¬ (e.source = 3 ∧ e.line = 4)) ∧ (sample.setSlot 0 none).NextPlace 0 9 ∧
    (∀ e ∈ (sample.setSlot 1 none).pendingEntries, e.source = 3 → e.line = 0 → e.stale = true) ∧
    (∀ e ∈ sample.stack, e.entry.source = 3 → e.entry.line = 0 → e.entry.stale = true ∨ e.released = true) ∧
    (∀ e ∈ sample.pendingEntries, e.source = 3 → e.line = 2 → e.stale = true) := by decide

theorem witness_ReleasedMark : sample.stack = [⟨⟨2, 3, 1, .edge, 1, [], false, false⟩, 2, false⟩] ++
      ⟨⟨3, 3, 2, .held, 1, [], false, false⟩, 5, false⟩ :: [⟨⟨4, 15, 3, .edge, 1, [0x00#8, 0x02#8], false, false⟩, 7, false⟩] ∧
    (⟨⟨3, 3, 2, .held, 1, [], false, false⟩, 5, false⟩ : StackEntry).Holding ∧
    ¬ (⟨⟨2, 3, 1, .edge, 1, [], false, false⟩, 2, false⟩ : StackEntry).Holding := by
  simp only [StackEntry.Holding]; decide

theorem witness_Hello : (holding .poll (.hello 8)).holding = some ⟨3, .poll, .hello 8⟩ ∧ (holding .poll (.hello 8)).retiring = none ∧
    activeRecord.state = .active ∧ sample.nodes[(0 : Node)].state = .absent ∧ sample.nodes[(0 : Node)].join = false ∧
    { activeRecord with state := .lost }.join = true ∧ { sample with queue := List.replicate 15 deadDone }.queue.length < 16 ∧
    16 ≤ fullQueue.queue.length := by decide

theorem witness_LocalPosting : LocalCondition.nodeLost 9 ∈ { sample with raised := [.nodeLost 9] }.raised ∧ sample.LinesUnique ∧
    (∀ k : Fin 8, ((0x00#8 : Byte).getLsbD k = true ↔ (9 : Node).val = k) ∧ ((0x02#8 : Byte).getLsbD k = true ↔ (9 : Node).val = 8 + k)) ∧
    sample.lineMap[(15 : Source)][(0 : Line)].enable = false ∧ sample.lineMap[(15 : Source)][(1 : Line)].enable = true ∧
    sample.table[(2 : Fin 32)] = some ⟨8, 15, 1, .edge, 1, [0x08#8, 0x00#8], false, false⟩ ∧
    (∀ e ∈ (sample.setSlot 2 none).pendingEntries, ¬ (e.source = 15 ∧ e.line = 1)) ∧ (sample.setSlot 2 none).NextPlace 2 9 := by decide

theorem witness_Insertion : sample.NextPlace 3 9 ∧ (∃ i : Fin 32, sample.table[i] = none) ∧ sample.liveTags.length < 63 ∧
    { sample with lastTag := 63 }.NextPlace 3 1 := by decide

end Sys2Proof.Tests
end

section
/-! SUPPORT. Rules about outcomes: what holds of every next state that an outcome can answer. -/

namespace Sys2Proof.Machine

/-- `P` holds of the next state, if the outcome answers one; a fault or a refusal meets it. -/
def EveryNext (P : State → Prop) (o : Host.Outcome State Fault Refusal) : Prop := ∀ t, o = .next t → P t

namespace EveryNext

variable {P : State → Prop} {s : State}

theorem next (h : P s) : EveryNext P (.next s) := by
  rintro _ ⟨⟩
  exact h

theorem settle {x : Except Fault State} (h : ∀ t, x = .ok t → P t) : EveryNext P (settle x) := by
  cases x with
  | ok s => exact next (h s rfl)
  | error f => rintro _ ⟨⟩

/-- A command of the Command Unit is lost with CMDLOST, or taken (R155, R156). -/
theorem taken {o : Host.Outcome State Fault Refusal} (hbusy : P { s with cmdLost := true }) (htaken : EveryNext P o) :
    EveryNext P (s.taken o) := by
  by_cases h : s.command = .idle
  · rwa [taken_idle h]
  · rw [taken_busy h]
    exact next hbusy

end EveryNext

/-- A sequence of operations that may fault answers a state only through an answer of its first. -/
theorem bind_ok {x : Except Fault State} {f : State → Except Fault State} {t : State} (h : x >>= f = .ok t) :
    ∃ u, x = .ok u ∧ f u = .ok t := by
  cases x with
  | ok u => exact ⟨u, rfl, h⟩
  | error e => cases h

end Sys2Proof.Machine
end

section
/-! SUPPORT. The configuration of the block: what the host configures and RESTART keeps (R7, R45, R46, R130, R131). Each
operation and each command either keeps it or writes one part of it. -/

namespace Sys2Proof.Machine

/-- What configures the block, read out of the state by `State.configuration`. -/
@[ext] structure Configuration where
  lineMap    : Vector (Vector LineConfig 8) 16
  lven0      : Byte
  lven1      : Byte
  floor      : Level
  div        : Nat
  replyWait  : Nat
  faultLimit : Nat
  joins      : Node → Bool
  limits     : Node → Credit

/-- The configuration that a state holds. -/
def State.configuration (s : State) : Configuration where
  lineMap := s.lineMap
  lven0 := s.lven0
  lven1 := s.lven1
  floor := s.floor
  div := s.div
  replyWait := s.replyWait
  faultLimit := s.faultLimit
  joins n := s.nodes[n].join
  limits n := s.nodes[n].configLimit

/-- The outcome's next state has the configuration of `s`. -/
abbrev KeepsConfiguration (s : State) : Host.Outcome State Fault Refusal → Prop :=
  EveryNext fun t => t.configuration = s.configuration

/-! ## The updates of the state -/

section
variable (s : State)

@[simp] theorem setSlot_configuration (i : Fin 32) (e : Option Entry) :
    (s.setSlot i e).configuration = s.configuration := rfl

theorem withCommand_configuration (command : CommandUnit) :
    { s with command }.configuration = s.configuration := rfl

@[simp] theorem mapPending_configuration (f : Entry → Option Entry) :
    (s.mapPending f).configuration = s.configuration := rfl

@[simp] theorem markStacked_configuration (n : Node) : (s.markStacked n).configuration = s.configuration := rfl

@[simp] theorem removeDones_configuration (n : Node) : (s.removeDones n).configuration = s.configuration := rfl

@[simp] theorem append_configuration (n : Node) (body : OutBody) :
    (s.append n body).configuration = s.configuration := rfl

@[simp] theorem raise_configuration (c : LocalCondition) : (s.raise c).configuration = s.configuration := rfl

@[simp] theorem withRes_configuration (r : ResultCode) : (s.withRes r).configuration = s.configuration := rfl

@[simp] theorem dismissWork_configuration (n : Node) : (s.dismissWork n).configuration = s.configuration := rfl

/-- A record written to the Node Table carries its join setting and its configured limit. -/
theorem setNode_configuration (n : Node) (r : NodeRecord) :
    (s.setNode n r).configuration =
      { s.configuration with
        joins := Function.update s.configuration.joins n r.join
        limits := Function.update s.configuration.limits n r.configLimit } := by
  have hnode : ∀ m : Node, (s.setNode n r).nodes[m] = if m = n then r else s.nodes[m] := by
    intro m
    simp [Vector.getElem_set, Fin.ext_iff, eq_comm]
  ext m
  case joins =>
    simp only [State.configuration, hnode, Function.update_apply]
    split <;> rfl
  case limits =>
    simp only [State.configuration, hnode, Function.update_apply]
    split <;> rfl
  all_goals rfl

/-- A record that leaves the two settings of its node alone leaves the configuration alone. -/
theorem setNode_keeps_configuration (n : Node) (r : NodeRecord) (hjoin : r.join = s.nodes[n].join)
    (hlimit : r.configLimit = s.nodes[n].configLimit) : (s.setNode n r).configuration = s.configuration := by
  rw [setNode_configuration, hjoin, hlimit]
  exact congrArg₂ (fun j l => { s.configuration with joins := j, limits := l })
    (Function.update_eq_self n s.configuration.joins) (Function.update_eq_self n s.configuration.limits)

end

/-! ## Composite operations -/

theorem insertEntry_configuration {s t : State} {src : Source} {line : Line} {kind : Kind} {payload : List Byte}
    {repost : Bool} (h : s.insertEntry src line kind payload repost = .ok t) : t.configuration = s.configuration := by
  obtain ⟨i, tag, -, -, rfl⟩ := insertEntry_ok h
  rfl

theorem post_configuration {s t : State} {line : Line} {payload : List Byte} (h : s.post line payload = .ok t) :
    t.configuration = s.configuration :=
  (congrArg State.configuration (post_frame h)).trans rfl

/-- Every waiting condition posted, one after the other. -/
theorem postAll_configuration {cs : List LocalCondition} {s t : State}
    (h : cs.foldlM State.postCondition s = .ok t) : t.configuration = s.configuration := by
  induction cs generalizing s with
  | nil =>
    cases h
    rfl
  | cons c cs ih =>
    obtain ⟨u, hc, hcs⟩ := bind_ok h
    exact (ih hcs).trans (post_configuration hc)

theorem endStop_configuration {s t : State} (h : s.endStop = .ok t) : t.configuration = s.configuration := by
  obtain ⟨u, hraised, h⟩ := bind_ok h
  obtain ⟨v, hdone, h⟩ := bind_ok h
  cases h
  calc _ = v.configuration := rfl
    _ = u.configuration := post_configuration hdone
    _ = s.configuration := postAll_configuration (s := { s with raised := [] }) hraised

theorem endRetire_configuration {s t : State} (h : s.endRetire = .ok t) : t.configuration = s.configuration := by
  obtain ⟨u, hdone, h⟩ := bind_ok h
  cases h
  calc _ = u.configuration := rfl
    _ = s.configuration := post_configuration hdone

theorem repost_configuration {s t : State} {e : StackEntry} (h : s.repost e = .ok t) :
    t.configuration = s.configuration := by
  obtain ⟨u, hinsert, h⟩ := bind_ok h
  cases h
  calc _ = u.configuration := rfl
    _ = s.configuration := insertEntry_configuration hinsert

theorem completeEntry_configuration {s t : State} {e : StackEntry} (h : s.completeEntry e = .ok t) :
    t.configuration = s.configuration := by
  have hdone : ∀ n, (s.endWithDone e n).configuration = s.configuration := by
    intro n
    unfold State.endWithDone
    split <;> rfl
  unfold State.completeEntry at h
  split at h
  case h_5 => exact repost_configuration h
  all_goals cases h
  · rfl
  · rfl
  · exact hdone _
  · exact hdone _

@[simp] theorem notify_configuration (s : State) (e : Entry) (outcome : DoneOutcome) :
    (s.notify e outcome).configuration = s.configuration := by
  unfold State.notify
  split <;> rfl

@[simp] theorem discardEntry_configuration (s : State) (slot : Fin 32) (e : Entry) :
    (s.discardEntry slot e).configuration = s.configuration := by
  unfold State.discardEntry
  split <;> simp

@[simp] theorem countFault_configuration (s : State) (n : Node) :
    (s.countFault n).configuration = s.configuration := by
  unfold State.countFault State.loseNode
  dsimp only
  split
  · split
    · simp only [raise_configuration, dismissWork_configuration]
      exact setNode_keeps_configuration _ _ _ rfl rfl
    · exact setNode_keeps_configuration _ _ _ rfl rfl
  · rfl

@[simp] theorem admitNode_configuration (s : State) (n : Node) (declared : Fin 9) :
    (s.admitNode n declared).configuration = s.configuration := by
  unfold State.admitNode
  rw [append_configuration]
  exact setNode_keeps_configuration _ _ _ rfl rfl

/-! ## Admission -/

theorem restartNode_configuration (s : State) (n : Node) (declared : Fin 9) :
    (s.restartNode n declared).configuration = s.configuration := by
  have hcleared : ((s.dismissWork n).setNode n s.nodes[n].clearSequence).configuration = s.configuration := by
    rw [← dismissWork_configuration s n]
    exact setNode_keeps_configuration _ _ _ rfl rfl
  unfold State.restartNode
  dsimp only
  rw [raise_configuration]
  split
  · rw [admitNode_configuration, hcleared]
  · rw [← hcleared]
    exact setNode_keeps_configuration _ _ _ rfl rfl

theorem hello_configuration (s : State) (n : Node) (declared : Fin 9) :
    (s.hello n declared).configuration = s.configuration := by
  have hjoin : (s.joinRequest n declared).configuration = s.configuration := by
    unfold State.joinRequest
    split
    · rfl
    · exact admitNode_configuration s n declared
  unfold State.hello
  split
  · split
    · exact hjoin
    · rfl
  · split
    · exact hjoin
    · rfl
  · exact restartNode_configuration s n declared
  · rfl
  · rfl

theorem applyRow_configuration {s t : State} {row : EventRow} {n : Node} {line : Line} {payload : List Byte}
    (h : s.applyRow row n line payload = .ok t) : t.configuration = s.configuration := by
  cases row
  case row2b => exact insertEntry_configuration h
  case row3b => exact insertEntry_configuration h
  all_goals
    cases h
    rfl

theorem decideEvent_configuration {s t : State} {n : Node} {seq : Seq} {more : Bool} {kind : EventKind} {line : Line}
    {payload : List Byte} (h : s.decideEvent n seq more kind line payload = .ok t) :
    t.configuration = s.configuration := by
  obtain ⟨u, happly, h⟩ := bind_ok h
  have hu : u.configuration = s.configuration := applyRow_configuration happly
  split at h
  · cases h
    rw [← hu]
    exact setNode_keeps_configuration _ _ _ rfl rfl
  · rename_i newEntry _
    have haccept : (u.setNode n (u.nodes[n].accept seq newEntry)).configuration = s.configuration := by
      rw [← hu]
      exact setNode_keeps_configuration _ _ _ rfl rfl
    cases h
    split <;> exact haccept

theorem sequenceFault_configuration {s t : State} {n : Node} {atOnce : Bool} (h : s.sequenceFault n atOnce = .ok t) :
    t.configuration = s.configuration := by
  unfold State.sequenceFault at h
  dsimp only at h
  split at h
  · exact (post_configuration h).trans (countFault_configuration s n)
  · split at h
    · exact (post_configuration h).trans (countFault_configuration s n)
    · cases h
      exact countFault_configuration s n

theorem judgeEvent_configuration {s t : State} {n : Node} {seq : Seq} {more : Bool} {kind : EventKind} {line : Line}
    {payload : List Byte} (h : s.judgeEvent n seq more kind line payload = .ok t) :
    t.configuration = s.configuration := by
  unfold State.judgeEvent at h
  dsimp only at h
  split at h
  · exact decideEvent_configuration h
  · split at h
    · cases h
      exact setNode_keeps_configuration s n _ rfl rfl
    · exact sequenceFault_configuration h

theorem handleReply_configuration {s t : State} {r : ReplyRecord} (h : s.handleReply r = .ok t) :
    t.configuration = s.configuration := by
  unfold State.handleReply at h
  split at h
  · cases h
    exact hello_configuration _ _ _
  · cases h
    rfl
  · cases h
    rfl
  · cases h
    split
    · exact setNode_keeps_configuration _ _ _ rfl rfl
    · rfl
  · split at h
    · exact judgeEvent_configuration h
    · cases h
      rfl

/-! ## The link and the Scheduler -/

theorem reportTransmission_configuration (s : State) (f : TxFrame) :
    (s.reportTransmission f).configuration = s.configuration := by
  unfold State.reportTransmission
  dsimp only
  split
  · split
    · rw [raise_configuration]
      exact setNode_keeps_configuration _ _ _ rfl rfl
    · rfl
  · split
    · rw [raise_configuration]
      exact setNode_keeps_configuration _ _ _ rfl rfl
    · rfl
  all_goals rfl

@[simp] theorem slotFault_configuration (s : State) (n : Node) (slot : SlotKind) :
    (s.slotFault n slot).configuration = s.configuration := by
  cases slot
  · exact countFault_configuration s n
  · rfl

@[simp] theorem badFrame_configuration (s : State) (n : Node) (slot : SlotKind) :
    (s.badFrame n slot).configuration = s.configuration :=
  slotFault_configuration _ n slot

@[simp] theorem goodReply_configuration (s : State) (r : ReplyRecord) :
    (s.goodReply r).configuration = s.configuration := by
  unfold State.goodReply
  split <;> rfl

theorem pollOrProbe_configuration (s : State) : s.pollOrProbe.configuration = s.configuration := by
  unfold State.pollOrProbe
  split
  · rfl
  · dsimp only
    split
    · rfl
    · split <;> rfl

/-- The state in which a step of a choice leaves the block, loaded or not. -/
def ChoiceStep.state : ChoiceStep → State
  | .loaded s => s
  | .goOn s => s

theorem stepOutbound_configuration (s : State) : s.stepOutbound.state.configuration = s.configuration := by
  unfold State.stepOutbound
  split
  · rfl
  · split <;> rfl

theorem stepBurst_configuration (s : State) : s.stepBurst.state.configuration = s.configuration := by
  unfold State.stepBurst
  split
  · split <;> rfl
  · rfl
  · rfl

theorem choose_configuration (s : State) : s.choose.configuration = s.configuration := by
  have houtbound := stepOutbound_configuration s
  unfold State.choose
  split
  next t h =>
    rwa [h] at houtbound
  next t h =>
    have hburst := stepBurst_configuration t
    rw [h] at houtbound
    split
    next u hu =>
      rw [hu] at hburst
      exact hburst.trans houtbound
    next u hu =>
      rw [hu] at hburst
      exact (pollOrProbe_configuration u).trans (hburst.trans houtbound)

/-- RESTART keeps each node's join setting and configured limit (R143). -/
theorem beginRestart_configuration (s : State) : s.beginRestart.configuration = s.configuration := by
  ext m
  case joins => simp [State.configuration, State.beginRestart, NodeRecord.restarted]
  case limits => simp [State.configuration, State.beginRestart, NodeRecord.restarted]
  all_goals rfl

/-- RETIRE writes the join setting of its node (R138). -/
theorem beginRetire_configuration (s : State) (n : Node) :
    (s.beginRetire n).configuration =
      { s.configuration with joins := Function.update s.configuration.joins n false } := by
  refine (withCommand_configuration _ _).trans ?_
  simp only [append_configuration, mapPending_configuration, markStacked_configuration, removeDones_configuration]
  calc _ = { s.configuration with
        joins := Function.update s.configuration.joins n false
        limits := Function.update s.configuration.limits n (s.configuration.limits n) } := setNode_configuration s n _
    _ = _ := by rw [Function.update_eq_self]

/-! ## The commands that keep the configuration -/

theorem execClaim_keepsConfiguration (s : State) : KeepsConfiguration s (execClaim s) := by
  unfold execClaim
  split
  · exact .next rfl
  · exact .next (notify_configuration _ _ _)
  · exact .next rfl

theorem execStart_keepsConfiguration (s : State) : KeepsConfiguration s (execStart s) := by
  refine .taken rfl ?_
  split <;> exact .next rfl

theorem execStop_keepsConfiguration (s : State) : KeepsConfiguration s (execStop s) := by
  refine .taken rfl ?_
  split
  · split
    · exact .next rfl
    · exact .settle fun _ => endStop_configuration
  · exact .next rfl

theorem execResume_keepsConfiguration (s : State) : KeepsConfiguration s (execResume s) := by
  refine .taken rfl ?_
  split <;> exact .next rfl

theorem execRestart_keepsConfiguration (s : State) : KeepsConfiguration s (execRestart s) :=
  .taken rfl (.next (beginRestart_configuration s))

theorem execRestartClearStep_keepsConfiguration (s : State) : KeepsConfiguration s (execRestartClearStep s) := by
  unfold execRestartClearStep
  split
  · split <;> exact .next rfl
  all_goals exact .next rfl

theorem execComplete_keepsConfiguration (s : State) : KeepsConfiguration s (execComplete s) := by
  refine .taken rfl ?_
  split
  · exact .next rfl
  · split
    · exact .next rfl
    · exact .settle fun _ => completeEntry_configuration

theorem execCompleteTop_keepsConfiguration (s : State) : KeepsConfiguration s (execCompleteTop s) := by
  refine .taken rfl ?_
  split
  · exact .next rfl
  · split
    · exact .next rfl
    · exact .settle fun _ => completeEntry_configuration

theorem execDiscard_keepsConfiguration (s : State) : KeepsConfiguration s (execDiscard s) := by
  refine .taken rfl ?_
  split
  · exact .next rfl
  · split
    · exact .next rfl
    · split
      · exact .next rfl
      · split
        · exact .next rfl
        · exact .next (discardEntry_configuration _ _ _)

theorem execGetEntry_keepsConfiguration (s : State) : KeepsConfiguration s (execGetEntry s) := by
  refine .taken rfl ?_
  split
  · exact .next rfl
  · split
    · exact .next rfl
    · split <;> exact .next rfl

theorem execGetLine_keepsConfiguration (s : State) : KeepsConfiguration s (execGetLine s) := by
  refine .taken rfl ?_
  split <;> exact .next rfl

theorem execGetNode_keepsConfiguration (s : State) : KeepsConfiguration s (execGetNode s) := by
  refine .taken rfl ?_
  split <;> exact .next rfl

theorem execRetireWalkStep_keepsConfiguration (s : State) : KeepsConfiguration s (execRetireWalkStep s) := by
  unfold execRetireWalkStep
  split
  · split
    · exact .next rfl
    · exact .settle fun _ => endRetire_configuration
  all_goals exact .next rfl

theorem execSchedulerChoice_keepsConfiguration (s : State) : KeepsConfiguration s (execSchedulerChoice s) := by
  unfold execSchedulerChoice
  split
  · exact .next (choose_configuration s)
  · exact .next rfl

theorem execFrameTransmitted_keepsConfiguration (s : State) : KeepsConfiguration s (execFrameTransmitted s) := by
  unfold execFrameTransmitted
  split
  · exact .next (reportTransmission_configuration s _)
  · exact .next rfl

theorem execReplyWaitExpiry_keepsConfiguration (s : State) : KeepsConfiguration s (execReplyWaitExpiry s) := by
  unfold execReplyWaitExpiry
  split
  · exact .next (slotFault_configuration s _ _)
  · exact .next rfl

theorem execStartBit_keepsConfiguration (k : Nat) (s : State) : KeepsConfiguration s (execStartBit k s) := by
  unfold execStartBit
  split <;> exact .next rfl

theorem execReplyReceived_keepsConfiguration (ldi : List Bool) (s : State) :
    KeepsConfiguration s (execReplyReceived ldi s) := by
  unfold execReplyReceived
  split
  · dsimp only
    split
    · exact .next (goodReply_configuration _ _)
    · exact .next (badFrame_configuration _ _ _)
  · exact .next rfl

theorem execFramingError_keepsConfiguration (ldi : List Bool) (s : State) :
    KeepsConfiguration s (execFramingError ldi s) := by
  unfold execFramingError
  split <;> exact .next rfl

theorem execDrainEnd_keepsConfiguration (s : State) : KeepsConfiguration s (execDrainEnd s) := by
  unfold execDrainEnd
  split
  · exact .next (badFrame_configuration s _ _)
  · exact .next rfl

theorem execGuardEnd_keepsConfiguration (s : State) : KeepsConfiguration s (execGuardEnd s) := by
  unfold execGuardEnd
  split
  · dsimp only
    split
    · exact .settle fun _ => endStop_configuration
    · exact .next rfl
  · exact .next rfl

theorem execAdmissionTake_keepsConfiguration (s : State) : KeepsConfiguration s (execAdmissionTake s) := by
  unfold execAdmissionTake
  split
  · exact .next rfl
  · split
    · exact .next rfl
    · exact .settle fun _ => handleReply_configuration

theorem execLocalPosting_keepsConfiguration (c : LocalCondition) (s : State) :
    KeepsConfiguration s (execLocalPosting c s) := by
  unfold execLocalPosting
  split
  · exact .settle fun _ => post_configuration
  · exact .next rfl

/-- A code that names no command leaves the configuration alone (R155). -/
theorem execBadCmd_keepsConfiguration {code : Byte} (hcode : wellFormed (.badCmd code) = true) (s : State) :
    KeepsConfiguration s (execBadCmd code s) := by
  have hnone : CmdCode.ofByte code = none := Option.isNone_iff_eq_none.mp hcode
  simp only [execBadCmd, hnone]
  exact .taken rfl (.next rfl)

/-- A write to a register with no behaviour of its own leaves the configuration alone (R153). -/
theorem execRegisterWrite_keepsConfiguration {addr : BitVec 4} {value : Byte}
    (haddr : wellFormed (.registerWrite addr value) = true) (s : State) :
    KeepsConfiguration s (execRegisterWrite addr value s) := by
  have hown : (Reg.ofAddr addr).ownWrite = false := by simpa [wellFormed] using haddr
  unfold execRegisterWrite
  cases hreg : Reg.ofAddr addr with
  | cmdRes | floor | lven => simp [hreg, Reg.ownWrite] at hown
  | arg i =>
    refine .taken rfl (.next ?_)
    unfold State.setArg
    split <;> rfl
  | stat | claim | cwSrc | cwLvl | cwFlg | cwPl0 | cwPl1 | top => exact .next rfl

/-! ## The commands that write the configuration -/

/-- How a command other than PIN_RESET may change the configuration: only its own writers have anything to write. -/
def ConfigurationWrite (c : Instr) (k k' : Configuration) : Prop :=
  match c with
  | .setLine => ∃ lineMap, k' = { k with lineMap }
  | .lvenWrite _ _ => ∃ lven0 lven1, k' = { k with lven0, lven1 }
  | .floorWrite _ => ∃ floor, k' = { k with floor }
  | .setLink => ∃ div replyWait faultLimit, k' = { k with div, replyWait, faultLimit }
  | .setNode => ∃ joins limits, k' = { k with joins, limits }
  | .retire => ∃ joins, k' = { k with joins }
  | _ => k' = k

theorem execSetLine_configuration (s : State) :
    EveryNext (fun t => ConfigurationWrite .setLine s.configuration t.configuration) (execSetLine s) := by
  refine .taken ⟨_, rfl⟩ ?_
  split
  · exact .next ⟨_, rfl⟩
  · dsimp only
    split <;> exact .next ⟨_, rfl⟩

theorem execLvenWrite_configuration (reg : LvenReg) (value : Byte) (s : State) :
    EveryNext (fun t => ConfigurationWrite (.lvenWrite reg value) s.configuration t.configuration)
      (execLvenWrite reg value s) := by
  cases reg <;> exact .next ⟨_, _, rfl⟩

theorem execFloorWrite_configuration (value : Byte) (s : State) :
    EveryNext (fun t => ConfigurationWrite (.floorWrite value) s.configuration t.configuration)
      (execFloorWrite value s) :=
  .next ⟨_, rfl⟩

theorem execSetLink_configuration (s : State) :
    EveryNext (fun t => ConfigurationWrite .setLink s.configuration t.configuration) (execSetLink s) := by
  refine .taken ⟨_, _, _, rfl⟩ ?_
  split
  · split <;> exact .next ⟨_, _, _, rfl⟩
  · exact .next ⟨_, _, _, rfl⟩

theorem execSetNode_configuration (s : State) :
    EveryNext (fun t => ConfigurationWrite .setNode s.configuration t.configuration) (execSetNode s) := by
  refine .taken ⟨_, _, rfl⟩ ?_
  split
  · exact .next ⟨_, _, rfl⟩
  · split
    · exact .next ⟨_, _, rfl⟩
    · exact .next ⟨_, _, setNode_configuration s _ _⟩

theorem execRetire_configuration (s : State) :
    EveryNext (fun t => ConfigurationWrite .retire s.configuration t.configuration) (execRetire s) := by
  refine .taken ⟨_, rfl⟩ ?_
  split
  · exact .next ⟨_, rfl⟩
  · split
    · exact .next ⟨_, rfl⟩
    · split
      · exact .next ⟨_, rfl⟩
      · split
        · exact .next ⟨_, rfl⟩
        · exact .next ⟨_, beginRetire_configuration s _⟩

/-- What each well-formed command but PIN_RESET does to the configuration. -/
theorem exec_configuration {c : Instr} (hwf : wellFormed c = true) (hpin : ∀ periods, c ≠ .pinReset periods)
    (s : State) : EveryNext (fun t => ConfigurationWrite c s.configuration t.configuration) (exec c s) := by
  cases c with
  | setLine => exact execSetLine_configuration s
  | lvenWrite reg value => exact execLvenWrite_configuration reg value s
  | floorWrite value => exact execFloorWrite_configuration value s
  | setLink => exact execSetLink_configuration s
  | setNode => exact execSetNode_configuration s
  | retire => exact execRetire_configuration s
  | pinReset periods => exact absurd rfl (hpin periods)
  | statRead => exact .next rfl
  | claim => exact execClaim_keepsConfiguration s
  | registerWrite addr value => exact execRegisterWrite_keepsConfiguration hwf s
  | badCmd code => exact execBadCmd_keepsConfiguration hwf s
  | start => exact execStart_keepsConfiguration s
  | stop => exact execStop_keepsConfiguration s
  | resume => exact execResume_keepsConfiguration s
  | restart => exact execRestart_keepsConfiguration s
  | restartClearStep => exact execRestartClearStep_keepsConfiguration s
  | complete => exact execComplete_keepsConfiguration s
  | completeTop => exact execCompleteTop_keepsConfiguration s
  | discard => exact execDiscard_keepsConfiguration s
  | getEntry => exact execGetEntry_keepsConfiguration s
  | getLine => exact execGetLine_keepsConfiguration s
  | getNode => exact execGetNode_keepsConfiguration s
  | retireWalkStep => exact execRetireWalkStep_keepsConfiguration s
  | schedulerChoice => exact execSchedulerChoice_keepsConfiguration s
  | frameTransmitted => exact execFrameTransmitted_keepsConfiguration s
  | replyWaitExpiry => exact execReplyWaitExpiry_keepsConfiguration s
  | replyReceived ldi => exact execReplyReceived_keepsConfiguration ldi s
  | drainEnd => exact execDrainEnd_keepsConfiguration s
  | guardEnd => exact execGuardEnd_keepsConfiguration s
  | admissionTake => exact execAdmissionTake_keepsConfiguration s
  | localPosting c => exact execLocalPosting_keepsConfiguration c s
  | startBit k => exact execStartBit_keepsConfiguration k s
  | framingError ldi => exact execFramingError_keepsConfiguration ldi s

/-- Each item of the configuration is changed by its own writers only. -/
theorem ConfigurationWrite.items {c : Instr} {k k' : Configuration} (h : ConfigurationWrite c k k') :
    (c ≠ .setLine → k'.lineMap = k.lineMap) ∧
    ((∀ r v, c ≠ .lvenWrite r v) → k'.lven0 = k.lven0 ∧ k'.lven1 = k.lven1) ∧
    ((∀ v, c ≠ .floorWrite v) → k'.floor = k.floor) ∧
    (c ≠ .setLink → k'.div = k.div ∧ k'.replyWait = k.replyWait ∧ k'.faultLimit = k.faultLimit) ∧
    (c ≠ .setNode → ∀ n : Node, k'.limits n = k.limits n ∧ (c ≠ .retire → k'.joins n = k.joins n)) := by
  unfold ConfigurationWrite at h
  split at h
  · obtain ⟨m, rfl⟩ := h
    simp
  · obtain ⟨l0, l1, rfl⟩ := h
    simp
  · obtain ⟨f, rfl⟩ := h
    simp
  · obtain ⟨d, w, l, rfl⟩ := h
    simp
  · obtain ⟨j, l, rfl⟩ := h
    simp
  · obtain ⟨j, rfl⟩ := h
    simp
  · subst h
    simp

/-- Settles O9: each command is a `ConfigurationWrite` of the configuration that the state holds. -/
theorem configurationChangesOnlyByItsCommand : Obligations.ConfigurationChangesOnlyByItsCommand := by
  intro c s t hwf hexec hpin
  exact (exec_configuration hwf hpin s t hexec).items

end Sys2Proof.Machine
end

section
/-! SUPPORT. Lines: how their address, configuration and occupancy stand in the registers (R11, R12, R18, R166), and the
two commands that address one. -/

namespace Sys2Proof.Machine

/-! ## The addressed line and the supplied fields -/

theorem lineOfBytes_eq_some {b b' : Byte} {src : Source} {line : Line} (hsrc : b.toNat = src.val)
    (hline : b'.toNat = line.val) : lineOfBytes b b' = some (src, line) := by
  have h : b.toNat < 16 ∧ b'.toNat < 8 := ⟨hsrc ▸ src.isLt, hline ▸ line.isLt⟩
  rw [lineOfBytes, dif_pos h]
  simp only [hsrc, hline]

theorem lineOfBytes_eq_none {b b' : Byte} (h : 16 ≤ b.toNat ∨ 8 ≤ b'.toNat) : lineOfBytes b b' = none :=
  dif_neg (by omega)

/-- The level field is the low four bits of ARG2, and the other three fields are bits of ARG3 (R166). -/
theorem configOfArgs_eq (arg2 arg3 : Byte) :
    configOfArgs arg2 arg3 =
      ⟨Fin.ofNat 16 arg2.toNat, if arg3.getLsbD 1 then .held else .edge, arg3.getLsbD 0, arg3.getLsbD 2⟩ := by
  have hlevel : Fin.ofNat 16 (bits arg2 0 4) = Fin.ofNat 16 arg2.toNat := by simp [bits, Fin.ext_iff]
  simp only [configOfArgs, hlevel]
  rfl

/-- One entry of the Line Map is replaced and the other 127 stand (R13). -/
theorem setLineConfig_getElem (s : State) (src src' : Source) (line line' : Line) (c : LineConfig) :
    (s.setLineConfig src line c).lineMap[src'][line'] =
      if src' = src ∧ line' = line then c else s.lineMap[src'][line'] := by
  by_cases hsrc : src' = src
  · subst hsrc
    simp [Vector.getElem_set, Fin.ext_iff, eq_comm]
  · have hne : src.val ≠ src'.val := fun h => hsrc (Fin.ext h.symm)
    simp [hsrc, Vector.getElem_set_ne, hne]

/-! ## The occupancy indications -/

theorem on_iff {e : Entry} {src : Source} {line : Line} : e.on src line = true ↔ e.source = src ∧ e.line = line := by
  simp [Entry.on]

section
variable (s : State) (src : Source) (line : Line)

theorem linePending_iff : s.linePending src line = true ↔ ∃ e ∈ s.pendingEntries, e.source = src ∧ e.line = line := by
  simp [State.linePending, on_iff]

theorem lineReleased_iff :
    s.lineReleased src line = true ↔
      ∃ e ∈ s.stack, e.entry.source = src ∧ e.entry.line = line ∧ e.released = true := by
  simp [State.lineReleased, on_iff, and_assoc]

theorem lineStale_iff :
    s.lineStale src line = true ↔
      (∃ e ∈ s.pendingEntries, e.source = src ∧ e.line = line ∧ e.stale = true) ∨
        ∃ e ∈ s.stack, e.entry.source = src ∧ e.entry.line = line ∧ e.entry.stale = true := by
  simp [State.lineStale, on_iff, and_assoc]

theorem inService_eq :
    s.inService src line =
      (s.stack.filter fun e => decide (e.entry.source = src ∧ e.entry.line = line)).length := by
  simp [State.inService, Entry.on, List.countP_eq_length_filter]

theorem occupied_iff :
    s.occupied src line = true ↔
      (∃ e ∈ s.pendingEntries, e.source = src ∧ e.line = line) ∨
        ∃ e ∈ s.stack, e.entry.source = src ∧ e.entry.line = line := by
  have hserved : 0 < s.inService src line ↔ ∃ e ∈ s.stack, e.entry.source = src ∧ e.entry.line = line := by
    simp [State.inService, List.countP_pos_iff, on_iff]
  rw [State.occupied, Bool.or_eq_true, linePending_iff, decide_eq_true_iff, hserved]

end

/-! ## The reports of GET_LINE -/

theorem lineConfigByte_eq (c : LineConfig) :
    lineConfigByte c =
      BitVec.ofNat 8 (64 * c.auto.toNat + 32 * (decide (c.kind = .held)).toNat + 16 * c.enable.toNat + c.level.val) := by
  refine congrArg (BitVec.ofNat 8) ?_
  simp only [flag, field, Kind.isHeld]
  omega

theorem occupancyByte_eq (s : State) (src : Source) (line : Line) :
    s.occupancyByte src line =
      BitVec.ofNat 8 (16 * s.inService src line + 4 * (s.lineStale src line).toNat +
        2 * (s.lineReleased src line).toNat + (s.linePending src line).toNat) := by
  refine congrArg (BitVec.ofNat 8) ?_
  simp only [flag, field]
  omega

/-! ## SET_LINE -/

section
variable {s : State} {src : Source} {line : Line} {c : LineConfig}

/-- HELD on source 15 is refused (R12). -/
theorem setLineCheck_localHeld (h : src = 15 ∧ c.kind = .held) : s.setLineCheck src line c = some .badArg :=
  if_pos h

/-- HELD with auto on is refused, as HELD on source 15 is (R12). -/
theorem setLineCheck_heldAuto (h : c.kind = .held ∧ c.auto = true) : s.setLineCheck src line c = some .badArg := by
  rw [State.setLineCheck, if_pos h, ite_self]

/-- After those two checks only a change of the kind of an occupied line is refused (R12). -/
theorem setLineCheck_legal (hlocal : ¬ (src = 15 ∧ c.kind = .held)) (hauto : ¬ (c.kind = .held ∧ c.auto = true)) :
    s.setLineCheck src line c =
      if c.kind ≠ s.lineMap[src][line].kind ∧ s.occupied src line then some .inUse else none :=
  (if_neg hlocal).trans (if_neg hauto)

theorem execSetLine_outOfRange (hidle : s.command = .idle) (hrange : 16 ≤ s.arg0.toNat ∨ 8 ≤ s.arg1.toNat) :
    execSetLine s = .next (s.withRes .badArg) := by
  simp only [execSetLine, taken_idle hidle, lineOfBytes_eq_none hrange]

section
variable (hidle : s.command = .idle) (hsrc : s.arg0.toNat = src.val) (hline : s.arg1.toNat = line.val)
include hidle hsrc hline

theorem execSetLine_refused {r : ResultCode} (h : s.setLineCheck src line (configOfArgs s.arg2 s.arg3) = some r) :
    execSetLine s = .next (s.withRes r) := by
  simp only [execSetLine, taken_idle hidle, lineOfBytes_eq_some hsrc hline, h]

theorem execSetLine_written (h : s.setLineCheck src line (configOfArgs s.arg2 s.arg3) = none) :
    execSetLine s = .next ((s.setLineConfig src line (configOfArgs s.arg2 s.arg3)).withRes .ok) := by
  simp only [execSetLine, taken_idle hidle, lineOfBytes_eq_some hsrc hline, h]

end

end

/-- Settles O28, check by check in the order of R12. -/
theorem setLineChecksThenWrites : Obligations.SetLineChecksThenWrites := by
  intro s
  refine ⟨taken_busy, execSetLine_outOfRange, ?_⟩
  intro hidle src line c occupied hsrc hline hoccupied hc
  obtain rfl : c = configOfArgs s.arg2 s.arg3 := hc.trans (configOfArgs_eq _ _).symm
  have hocc : s.occupied src line = true ↔ occupied := (occupied_iff s src line).trans hoccupied.symm
  refine ⟨fun h => ?_, fun h => ?_, fun hlocal hauto => ⟨fun h => ?_, fun h => ?_⟩⟩
  · exact execSetLine_refused hidle hsrc hline (setLineCheck_localHeld h)
  · exact execSetLine_refused hidle hsrc hline (setLineCheck_heldAuto h)
  · obtain ⟨hkind, hbusy⟩ := h
    refine execSetLine_refused hidle hsrc hline ?_
    rw [setLineCheck_legal hlocal hauto, if_pos ⟨hkind, hocc.mpr hbusy⟩]
  · have hpass : s.setLineCheck src line (configOfArgs s.arg2 s.arg3) = none := by
      rw [setLineCheck_legal hlocal hauto, if_neg]
      rintro ⟨hkind, hbusy⟩
      exact h.elim hkind (fun hfree => hfree (hocc.mp hbusy))
    refine ⟨_, execSetLine_written hidle hsrc hline hpass, ?_, ?_⟩
    · rw [setLineConfig_getElem, if_pos ⟨rfl, rfl⟩]
    · intro src' line' hother
      rw [setLineConfig_getElem, if_neg (by tauto)]

/-! ## GET_LINE -/

/-- Settles O29: the two bytes of the report are those of `lineConfigByte_eq` and `occupancyByte_eq`, their indications as
R11 has them. -/
theorem getLineReportsConfigurationAndOccupancy : Obligations.GetLineReportsConfigurationAndOccupancy := by
  intro s
  refine ⟨taken_busy, fun hidle hrange => ?_, ?_⟩
  · simp only [exec, execGetLine, taken_idle hidle, lineOfBytes_eq_none hrange]
    rfl
  · intro hidle src line p r x n hsrc hline hp hn hr hx
    obtain rfl : p = s.linePending src line := Bool.eq_iff_iff.mpr (hp.trans (linePending_iff s src line).symm)
    obtain rfl : r = s.lineReleased src line := Bool.eq_iff_iff.mpr (hr.trans (lineReleased_iff s src line).symm)
    obtain rfl : x = s.lineStale src line := Bool.eq_iff_iff.mpr (hx.trans (lineStale_iff s src line).symm)
    obtain rfl : n = s.inService src line := hn.trans (inService_eq s src line).symm
    simp only [exec, execGetLine, taken_idle hidle, lineOfBytes_eq_some hsrc hline, lineConfigByte_eq,
      occupancyByte_eq]
    rfl

end Sys2Proof.Machine
end

section
/-! SUPPORT. Resolution: what a candidate is, the winner of the three stages, the interrupt request, FLOOR and the level
enables (R45, R46, R48, R49, R53). -/

namespace Sys2Proof.Machine

/-! ## Candidates -/

theorem levelEnabled_eq (s : State) (l : Level) :
    s.levelEnabled l = if l.val < 8 then s.lven0.getLsbD l.val else s.lven1.getLsbD (l.val - 8) := rfl

section
variable {s : State}

theorem topLevel_eq_some {l : Level} : s.topLevel = some l ↔ ∃ e, s.stack.getLast? = some e ∧ e.level = l :=
  Option.map_eq_some_iff

/-- The three tests of R48, one clause each. -/
theorem levelPasses_iff {l : Level} :
    s.levelPasses l = true ↔ s.levelEnabled l = true ∧ s.floor ≤ l ∧ ∀ top, s.topLevel = some top → top < l := by
  unfold State.levelPasses
  cases s.topLevel <;> simp [and_assoc]

/-- A candidate is a pending entry whose line's level passes the three tests (R48). -/
theorem mem_candidates {e : Entry} :
    e ∈ s.candidates ↔ e ∈ s.pendingEntries ∧ s.levelPasses (s.lineLevel e) = true :=
  List.mem_filter

end

/-- Settles O17: the tests of `levelPasses_iff`, the top level spelled by the top stack entry. -/
theorem candidatesPassTheThreeTests : Obligations.CandidatesPassTheThreeTests := by
  intro s e
  have htop : (∀ top, s.topLevel = some top → top < s.lineLevel e) ↔
      ∀ top : StackEntry, s.stack.getLast? = some top → top.level < s.lineLevel e := by
    simp only [topLevel_eq_some]
    constructor
    · exact fun h top htop => h _ ⟨top, htop, rfl⟩
    · rintro h _ ⟨top, htop, rfl⟩
      exact h top htop
  rw [mem_candidates, mem_pendingEntries, levelPasses_iff, levelEnabled_eq, htop]
  refine and_congr_right fun _ => ⟨fun h => ⟨_, rfl, h⟩, ?_⟩
  rintro ⟨_, rfl, h⟩
  exact h

/-! ## The entry of a line -/

/-- Where lines are unique, a line is pending in one slot (R22). -/
theorem slot_unique {s : State} (hlines : s.LinesUnique) {i j : Fin 32} {e f : Entry} (he : s.table[i] = some e)
    (hf : s.table[j] = some f) (hsource : e.source = f.source) (hline : e.line = f.line) : i = j := by
  have hslots := List.pairwise_iff_getElem.mp (List.pairwise_filterMap.mp hlines)
  have hlt : ∀ {i j : Fin 32} {e f : Entry}, s.table[i] = some e → s.table[j] = some f → e.source = f.source →
      e.line = f.line → ¬ i < j := fun {i j e f} he hf hsource hline hij =>
    hslots i j (by simp) (by simp) hij e (by simpa using he) f (by simpa using hf) ⟨hsource, hline⟩
  exact le_antisymm (not_lt.mp (hlt hf he hsource.symm hline.symm)) (not_lt.mp (hlt he hf hsource hline))

/-- The look-up of a pending entry's line finds it. -/
theorem pendingOn_self {s : State} (hlines : s.LinesUnique) {i : Fin 32} {e : Entry} (he : s.table[i] = some e) :
    s.pendingOn e.source e.line = some (i, e) := by
  cases hfind : s.pendingOn e.source e.line with
  | none =>
    have := findPending_none.mp hfind e (mem_pendingEntries.mpr ⟨i, he⟩)
    simp [Entry.on] at this
  | some found =>
    obtain ⟨j, f⟩ := found
    obtain ⟨hf, hon⟩ := findPending_some hfind
    obtain ⟨hsource, hline⟩ := on_iff.mp hon
    obtain rfl := slot_unique hlines hf he hsource hline
    cases he.symm.trans hf
    rfl

/-! ## The three orders of selection -/

/-- A search along everything of a kind, in ascending order of `key`, for one that some entry of `es` answers to: it ends, and
at the least of those. -/
theorem search_least {α : Type} {l : List α} {key : α → Nat} (hsorted : l.Pairwise fun a b => key a < key b)
    (hall : ∀ a, a ∈ l) (q : α → Entry → Bool) {es : List Entry} {c : α} {d : Entry} (hd : d ∈ es) (hcd : q c d = true) :
    ∃ a e, l.find? (fun a => es.any (q a)) = some a ∧ e ∈ es ∧ q a e = true ∧
      ∀ b, ∀ f ∈ es, q b f = true → key a ≤ key b := by
  have hends : (l.find? fun a => es.any (q a)).isSome :=
    List.find?_isSome.mpr ⟨c, hall c, List.any_eq_true.mpr ⟨d, hd, hcd⟩⟩
  obtain ⟨a, ha⟩ := Option.isSome_iff_exists.mp hends
  obtain ⟨hany, before, after, rfl, hbefore⟩ := List.find?_eq_some_iff_append.mp ha
  obtain ⟨e, he, hae⟩ := List.any_eq_true.mp hany
  refine ⟨a, e, ha, he, hae, fun b f hf hbf => ?_⟩
  have hafter := (List.pairwise_cons.mp (List.pairwise_append.mp hsorted).2.1).1
  rcases List.mem_append.mp (hall b) with hmem | hmem
  · have hnone := hbefore b hmem
    rw [List.any_eq_true.mpr ⟨f, hf, hbf⟩] at hnone
    cases hnone
  · rcases List.mem_cons.mp hmem with rfl | hmem
    · exact le_rfl
    · exact (hafter b hmem).le

theorem levelsDown_sorted : levelsDown.Pairwise fun a b => 15 - a.val < 15 - b.val := by decide

theorem mem_levelsDown (l : Level) : l ∈ levelsDown := List.mem_reverse.mpr (List.mem_finRange l)

theorem sourcesAfter_sorted (p : Source) :
    (sourcesAfter p).Pairwise fun a b => sourceDistance p a < sourceDistance p b := by
  revert p
  decide

theorem mem_sourcesAfter (p src : Source) : src ∈ sourcesAfter p := by
  revert p src
  decide

theorem linesUp_sorted : linesUp.Pairwise fun a b => a.val < b.val := List.pairwise_lt_finRange 8

theorem mem_linesUp (line : Line) : line ∈ linesUp := List.mem_finRange line

theorem sourceDistance_injective {p a b : Source} (h : sourceDistance p a = sourceDistance p b) : a = b := by
  unfold sourceDistance at h
  exact Fin.ext (by omega)

/-! ## The winner -/

/-- The candidate that the three stages leave: at the highest level, then from the first source after the pointer of that
level, then on the lowest line (R49). -/
abbrev State.Foremost (s : State) (e : Entry) : Prop :=
  e ∈ s.candidates ∧ (∀ f ∈ s.candidates, s.lineLevel f ≤ s.lineLevel e) ∧
    (∀ f ∈ s.candidates, s.lineLevel f = s.lineLevel e →
      sourceDistance s.rotation[s.lineLevel e] e.source ≤ sourceDistance s.rotation[s.lineLevel e] f.source) ∧
    ∀ f ∈ s.candidates, s.lineLevel f = s.lineLevel e → f.source = e.source → e.line ≤ f.line

/-- Two foremost candidates agree in level, then in source, then in line. -/
theorem Foremost_unique {s : State} (hlines : s.LinesUnique) {i j : Fin 32} {e f : Entry} (hi : s.table[i] = some e)
    (he : s.Foremost e) (hj : s.table[j] = some f) (hf : s.Foremost f) : (i, e) = (j, f) := by
  obtain ⟨hec, helevel, hesource, heline⟩ := he
  obtain ⟨hfc, hflevel, hfsource, hfline⟩ := hf
  have hlevel : s.lineLevel e = s.lineLevel f := le_antisymm (hflevel e hec) (helevel f hfc)
  have hsource : e.source = f.source := by
    have hfe := hfsource e hec hlevel
    simp only [← hlevel] at hfe
    exact sourceDistance_injective (le_antisymm (hesource f hfc hlevel.symm) hfe)
  have hline : e.line = f.line :=
    le_antisymm (heline f hfc hlevel.symm hsource.symm) (hfline e hec hlevel hsource)
  obtain rfl := slot_unique hlines hi hj hsource hline
  cases hi.symm.trans hj
  rfl

/-- With a candidate, each of the three searches ends, and they lead to a foremost candidate. -/
theorem exists_winner {s : State} (hlines : s.LinesUnique) {c : Entry} (hc : c ∈ s.candidates) :
    ∃ i e, s.winner = some (i, e) ∧ s.table[i] = some e ∧ s.Foremost e := by
  obtain ⟨level, d, hlevel, hd, hdl, hhighest⟩ := search_least levelsDown_sorted mem_levelsDown
    (fun l e => decide (s.lineLevel e = l)) hc (decide_eq_true rfl)
  simp only [decide_eq_true_eq] at hdl hhighest
  subst hdl
  have hat : ∀ {g}, g ∈ s.candidates.filter (fun e => decide (s.lineLevel e = s.lineLevel d)) ↔
      g ∈ s.candidates ∧ s.lineLevel g = s.lineLevel d := by simp
  obtain ⟨src, f, hsrc, hf, hfs, hnearest⟩ := search_least (sourcesAfter_sorted s.rotation[s.lineLevel d])
    (mem_sourcesAfter _) (fun c e => decide (e.source = c)) (hat.mpr ⟨hd, rfl⟩) (decide_eq_true rfl)
  simp only [decide_eq_true_eq] at hfs hnearest
  subst hfs
  obtain ⟨line, e, hline, he, hon, hlowest⟩ := search_least linesUp_sorted mem_linesUp
    (fun l e => e.on f.source l) hf (on_iff.mpr ⟨rfl, rfl⟩)
  obtain ⟨hsource, rfl⟩ := on_iff.mp hon
  obtain ⟨hec, hel⟩ := hat.mp he
  obtain ⟨i, hi⟩ := mem_pendingEntries.mp (mem_candidates.mp hec).1
  refine ⟨i, e, ?_, hi, hec, fun g hg => ?_, fun g hg hgl => ?_, fun g hg hgl hgs => ?_⟩
  · simp only [State.winner, Option.bind_eq_bind, hlevel, hsrc, hline, Option.bind_some]
    rw [← hsource]
    exact pendingOn_self hlines hi
  · have := hhighest _ g hg rfl
    exact hel ▸ Fin.le_def.mpr (by omega)
  · simp only [hel, hsource]
    exact hnearest _ g (hat.mpr ⟨hg, hgl.trans hel⟩) rfl
  · exact hlowest _ g (hat.mpr ⟨hg, hgl.trans hel⟩) (on_iff.mpr ⟨hgs.trans hsource, rfl⟩)

/-- Settles O18: the searches of the model end at a foremost candidate, and there is no other. -/
theorem winnerIsSelectedInThreeStages : Obligations.WinnerIsSelectedInThreeStages := by
  intro s hlines
  have hnone : s.candidates = [] → s.winner = none := by
    intro h
    simp only [State.winner, h]
    rfl
  have hsome : ∀ c ∈ s.candidates, ∃ i e, s.winner = some (i, e) ∧ s.table[i] = some e ∧ s.Foremost e :=
    fun c => exists_winner hlines
  refine ⟨⟨fun h => ?_, hnone⟩, fun i e => ⟨fun h => ?_, ?_⟩⟩
  · refine List.eq_nil_iff_forall_not_mem.mpr fun c hc => ?_
    obtain ⟨i, e, hwinner, -⟩ := hsome c hc
    cases h.symm.trans hwinner
  · obtain ⟨c, hc⟩ := List.exists_mem_of_ne_nil s.candidates fun hnil => by simp [hnone hnil] at h
    obtain ⟨j, f, hwinner, hspec⟩ := hsome c hc
    cases h.symm.trans hwinner
    exact hspec
  · rintro ⟨hi, he⟩
    obtain ⟨j, f, hwinner, hj, hf⟩ := hsome e he.1
    rw [hwinner, Foremost_unique hlines hi he hj hf]

/-! ## The interrupt request -/

/-- The three terms of R53. -/
theorem irq_iff {s : State} :
    s.irq = true ↔ s.mode ≠ .config ∧ s.stack.length < Config.stackMax ∧ ∃ e, e ∈ s.candidates := by
  have hsome : (!s.candidates.isEmpty) = true ↔ ∃ e, e ∈ s.candidates := by
    rw [Bool.not_eq_true', List.isEmpty_eq_false_iff_exists_mem]
  simp only [State.irq, Bool.and_eq_true, decide_eq_true_eq, hsome, and_assoc]

theorem irq_config {s : State} (h : s.mode = .config) : s.irq = false := by
  simp [State.irq, h]

/-- The modes other than CONFIG (R158). -/
theorem ne_config_iff {m : Mode} : m ≠ .config ↔ m ∈ [Mode.run, .stopping, .paused] := by
  cases m <;> simp

/-- STAT has the mode below IRQ and STACKFULL, and its flags each at one bit (R154, R166). -/
theorem statByte_irq_stackFull (s : State) :
    s.statByte.getLsbD 4 = s.irq ∧ s.statByte.getLsbD 5 = s.stackFull := by
  unfold State.statByte
  generalize s.mode = m, s.busy = b2, s.cmdLost = b3, s.irq = b4, s.stackFull = b5, s.poolFull = b6, s.queueFull = b7
  revert b2 b3 b4 b5 b6 b7
  cases m <;> decide

/-- Settles O19: the terms of `irq_iff`, and the two bits of `statByte_irq_stackFull`. -/
theorem irqFollowsTheThreeTerms : Obligations.IrqFollowsTheThreeTerms := by
  intro s
  obtain ⟨hirq, hfull⟩ := statByte_irq_stackFull s
  refine ⟨?_, rfl, rfl, hirq, ?_, irq_config, irq_config rfl, ?_⟩
  · rw [irq_iff, ne_config_iff]
    rfl
  · rw [hfull]
    exact decide_eq_true_iff
  · rintro _ ⟨⟩
    rfl

/-! ## FLOOR and the level enables -/

/-- FLOOR receives the low four bits of the byte written (R46). -/
theorem writeFloor_eq (s : State) (v : Byte) : s.writeFloor v = { s with floor := Fin.ofNat 16 v.toNat } := by
  have hlow : Fin.ofNat 16 (bits v 0 4) = Fin.ofNat 16 v.toNat := by simp [bits, Fin.ext_iff]
  rw [State.writeFloor, hlow]

/-- A level in the low half of a byte reads back as it is (R166). -/
theorem packed_level_toNat (l : Level) : (packed (field 0 l.val)).toNat = l.val := by
  simp only [packed, field, BitVec.toNat_ofNat]
  omega

/-- Settles O15: the bounds of a candidate's level are the tests of `levelPasses_iff`. -/
theorem floorAndLevelEnables : Obligations.FloorAndLevelEnables := by
  intro s v
  refine ⟨congrArg Host.Outcome.next (writeFloor_eq s v), rfl, rfl, packed_level_toNat s.floor, rfl, rfl, ?_, rfl, rfl,
    rfl, fun t hexec => ?_⟩
  · rintro e he _ rfl
    obtain ⟨henabled, hfloor, htop⟩ := levelPasses_iff.mp (mem_candidates.mp he).2
    rw [levelEnabled_eq] at henabled
    refine ⟨hfloor, fun top h => max_le hfloor (htop top h), fun hlow => ?_, fun hhigh => ?_⟩
    · rwa [if_pos hlow] at henabled
    · rwa [if_neg (not_lt.mpr hhigh)] at henabled
  · have hkept := execRestart_keepsConfiguration s t hexec
    exact ⟨congrArg Configuration.floor hkept, congrArg Configuration.lven0 hkept, congrArg Configuration.lven1 hkept⟩

end Sys2Proof.Machine
end

section
/-! SUPPORT. The rotation pointers (R43, R51): a claim moves at most one of them, RESTART and a pin reset set them all, and
every other operation and command leaves them. -/

namespace Sys2Proof.Machine

/-- The outcome's next state has the rotation pointers of `s`. -/
abbrev KeepsRotation (s : State) : Host.Outcome State Fault Refusal → Prop :=
  EveryNext fun t => t.rotation = s.rotation

/-! ## Operations that can fault -/

theorem insertEntry_rotation {s t : State} {src : Source} {line : Line} {kind : Kind} {payload : List Byte}
    {repost : Bool} (h : s.insertEntry src line kind payload repost = .ok t) : t.rotation = s.rotation := by
  obtain ⟨i, tag, -, -, rfl⟩ := insertEntry_ok h
  rfl

theorem post_rotation {s t : State} {line : Line} {payload : List Byte} (h : s.post line payload = .ok t) :
    t.rotation = s.rotation :=
  (congrArg State.rotation (post_frame h)).trans rfl

theorem postAll_rotation {cs : List LocalCondition} {s t : State} (h : cs.foldlM State.postCondition s = .ok t) :
    t.rotation = s.rotation := by
  induction cs generalizing s with
  | nil =>
    cases h
    rfl
  | cons c cs ih =>
    obtain ⟨u, hc, hcs⟩ := bind_ok h
    exact (ih hcs).trans (post_rotation hc)

theorem endStop_rotation {s t : State} (h : s.endStop = .ok t) : t.rotation = s.rotation := by
  obtain ⟨u, hraised, h⟩ := bind_ok h
  obtain ⟨v, hdone, h⟩ := bind_ok h
  cases h
  exact (post_rotation hdone :).trans (postAll_rotation (s := { s with raised := [] }) hraised)

theorem endRetire_rotation {s t : State} (h : s.endRetire = .ok t) : t.rotation = s.rotation := by
  obtain ⟨u, hdone, h⟩ := bind_ok h
  cases h
  exact (post_rotation hdone :)

theorem completeEntry_rotation {s t : State} {e : StackEntry} (h : s.completeEntry e = .ok t) :
    t.rotation = s.rotation := by
  have hdone : ∀ n, (s.endWithDone e n).rotation = s.rotation := by
    intro n
    unfold State.endWithDone
    split <;> rfl
  unfold State.completeEntry at h
  split at h
  case h_5 =>
    obtain ⟨u, hinsert, h⟩ := bind_ok h
    cases h
    exact (insertEntry_rotation hinsert :)
  all_goals cases h
  · rfl
  · rfl
  · exact hdone _
  · exact hdone _

/-! ## Operations that cannot fault -/

theorem notify_rotation (s : State) (e : Entry) (outcome : DoneOutcome) :
    (s.notify e outcome).rotation = s.rotation := by
  unfold State.notify
  split <;> rfl

theorem discardEntry_rotation (s : State) (slot : Fin 32) (e : Entry) :
    (s.discardEntry slot e).rotation = s.rotation := by
  unfold State.discardEntry
  split
  · rfl
  · exact notify_rotation _ e _

theorem countFault_rotation (s : State) (n : Node) : (s.countFault n).rotation = s.rotation := by
  obtain ⟨_, _, _, _, _, h⟩ := countFault_frame s n
  rw [h]

theorem slotFault_rotation (s : State) (n : Node) (slot : SlotKind) :
    (s.slotFault n slot).rotation = s.rotation := by
  cases slot
  · exact countFault_rotation s n
  · rfl

theorem reportTransmission_rotation (s : State) (f : TxFrame) :
    (s.reportTransmission f).rotation = s.rotation := by
  unfold State.reportTransmission
  cases f.kind
  case admitFrame | eject =>
    dsimp only
    split <;> rfl
  all_goals rfl

theorem stepOutbound_rotation (s : State) : s.stepOutbound.state.rotation = s.rotation := by
  unfold State.stepOutbound
  split
  · rfl
  · split <;> rfl

theorem stepBurst_rotation (s : State) : s.stepBurst.state.rotation = s.rotation := by
  unfold State.stepBurst
  split
  · split <;> rfl
  · rfl
  · rfl

theorem pollOrProbe_rotation (s : State) : s.pollOrProbe.rotation = s.rotation := by
  unfold State.pollOrProbe
  split
  · rfl
  · dsimp only
    split
    · rfl
    · split <;> rfl

theorem choose_rotation (s : State) : s.choose.rotation = s.rotation := by
  have houtbound := stepOutbound_rotation s
  unfold State.choose
  split
  next t h => rwa [h] at houtbound
  next t h =>
    have hburst := stepBurst_rotation t
    rw [h] at houtbound
    split
    next u hu =>
      rw [hu] at hburst
      exact hburst.trans houtbound
    next u hu =>
      rw [hu] at hburst
      exact (pollOrProbe_rotation u).trans (hburst.trans houtbound)

/-! ## Admission -/

theorem dismissWork_rotation (s : State) (n : Node) : (s.dismissWork n).rotation = s.rotation := rfl

theorem admitNode_rotation (s : State) (n : Node) (declared : Fin 9) :
    (s.admitNode n declared).rotation = s.rotation := rfl

theorem hello_rotation (s : State) (n : Node) (declared : Fin 9) : (s.hello n declared).rotation = s.rotation := by
  have hjoin : (s.joinRequest n declared).rotation = s.rotation := by
    unfold State.joinRequest
    split <;> rfl
  have hrestart : (s.restartNode n declared).rotation = s.rotation := by
    unfold State.restartNode
    dsimp only
    rw [State.raise_rotation]
    split <;> simp only [admitNode_rotation, State.setNode_rotation, dismissWork_rotation]
  unfold State.hello
  cases s.nodes[n].state
  case absent | lost =>
    dsimp only
    split
    · exact hjoin
    · rfl
  case active => exact hrestart
  all_goals rfl

theorem decideEvent_rotation {s t : State} {n : Node} {seq : Seq} {more : Bool} {kind : EventKind} {line : Line}
    {payload : List Byte} (h : s.decideEvent n seq more kind line payload = .ok t) : t.rotation = s.rotation := by
  obtain ⟨u, happly, h⟩ := bind_ok h
  have hu : u.rotation = s.rotation := by
    cases hrow : s.eventRow n kind line
    all_goals rw [hrow] at happly
    case row2b | row3b => exact insertEntry_rotation happly
    all_goals
      cases happly
      rfl
  split at h
  · cases h
    exact hu
  · cases h
    split <;> exact hu

theorem sequenceFault_rotation {s t : State} {n : Node} {atOnce : Bool} (h : s.sequenceFault n atOnce = .ok t) :
    t.rotation = s.rotation := by
  unfold State.sequenceFault at h
  dsimp only at h
  split at h
  · exact (post_rotation h).trans (countFault_rotation s n)
  · split at h
    · exact (post_rotation h).trans (countFault_rotation s n)
    · cases h
      exact countFault_rotation s n

theorem judgeEvent_rotation {s t : State} {n : Node} {seq : Seq} {more : Bool} {kind : EventKind} {line : Line}
    {payload : List Byte} (h : s.judgeEvent n seq more kind line payload = .ok t) : t.rotation = s.rotation := by
  unfold State.judgeEvent at h
  dsimp only at h
  split at h
  · exact decideEvent_rotation h
  · split at h
    · cases h
      rfl
    · exact sequenceFault_rotation h

theorem handleReply_rotation {s t : State} {r : ReplyRecord} (h : s.handleReply r = .ok t) :
    t.rotation = s.rotation := by
  unfold State.handleReply at h
  split at h
  case h_1 =>
    cases h
    exact hello_rotation s _ _
  case h_4 =>
    cases h
    split <;> rfl
  case h_5 =>
    split at h
    · exact judgeEvent_rotation h
    · cases h
      rfl
  all_goals
    cases h
    rfl

/-! ## The commands -/

theorem execStop_keepsRotation (s : State) : KeepsRotation s (execStop s) := by
  refine .taken rfl ?_
  split
  · split
    · exact .next rfl
    · exact .settle fun _ => endStop_rotation
  · exact .next rfl

theorem execRestartClearStep_keepsRotation (s : State) : KeepsRotation s (execRestartClearStep s) := by
  unfold execRestartClearStep
  cases s.command with
  | restart i =>
    dsimp only
    split <;> exact .next rfl
  | idle | stop | retire => exact .next rfl

theorem execComplete_keepsRotation (s : State) : KeepsRotation s (execComplete s) := by
  refine .taken rfl ?_
  split
  · exact .next rfl
  · split
    · exact .next rfl
    · exact .settle fun _ => completeEntry_rotation

theorem execCompleteTop_keepsRotation (s : State) : KeepsRotation s (execCompleteTop s) := by
  refine .taken rfl ?_
  split
  · exact .next rfl
  · split
    · exact .next rfl
    · exact .settle fun _ => completeEntry_rotation

theorem execDiscard_keepsRotation (s : State) : KeepsRotation s (execDiscard s) := by
  refine .taken rfl ?_
  split
  · exact .next rfl
  · split
    · exact .next rfl
    · split
      · exact .next rfl
      · split
        · exact .next rfl
        · exact .next (discardEntry_rotation s _ _)

theorem execGetEntry_keepsRotation (s : State) : KeepsRotation s (execGetEntry s) := by
  refine .taken rfl ?_
  split
  · exact .next rfl
  · split
    · exact .next rfl
    · split <;> exact .next rfl

theorem execSetLine_keepsRotation (s : State) : KeepsRotation s (execSetLine s) := by
  refine .taken rfl ?_
  split
  · exact .next rfl
  · dsimp only
    split <;> exact .next rfl

theorem execSetNode_keepsRotation (s : State) : KeepsRotation s (execSetNode s) := by
  refine .taken rfl ?_
  split
  · exact .next rfl
  · split <;> exact .next rfl

theorem execSetLink_keepsRotation (s : State) : KeepsRotation s (execSetLink s) := by
  refine .taken rfl ?_
  split
  · split <;> exact .next rfl
  · exact .next rfl

theorem beginRetire_rotation (s : State) (n : Node) : (s.beginRetire n).rotation = s.rotation := by
  simp only [State.beginRetire, State.append_rotation, State.mapPending_rotation, State.markStacked_rotation,
    State.removeDones_rotation, State.setNode_rotation]

theorem execRetire_keepsRotation (s : State) : KeepsRotation s (execRetire s) := by
  refine .taken rfl ?_
  split
  · exact .next rfl
  · split
    · exact .next rfl
    · split
      · exact .next rfl
      · split
        · exact .next rfl
        · exact .next (beginRetire_rotation s _)

theorem execRetireWalkStep_keepsRotation (s : State) : KeepsRotation s (execRetireWalkStep s) := by
  unfold execRetireWalkStep
  cases s.command with
  | retire n i =>
    dsimp only
    split
    · exact .next rfl
    · exact .settle fun _ => endRetire_rotation
  | idle | stop | restart => exact .next rfl

theorem execSchedulerChoice_keepsRotation (s : State) : KeepsRotation s (execSchedulerChoice s) := by
  unfold execSchedulerChoice
  split
  · exact .next (choose_rotation s)
  · exact .next rfl

theorem execFrameTransmitted_keepsRotation (s : State) : KeepsRotation s (execFrameTransmitted s) := by
  unfold execFrameTransmitted
  split
  · exact .next (reportTransmission_rotation s _)
  · exact .next rfl

theorem execReplyWaitExpiry_keepsRotation (s : State) : KeepsRotation s (execReplyWaitExpiry s) := by
  unfold execReplyWaitExpiry
  split
  · exact .next (slotFault_rotation s _ _)
  · exact .next rfl

theorem execReplyReceived_keepsRotation (ldi : List Bool) (s : State) :
    KeepsRotation s (execReplyReceived ldi s) := by
  have hgood : ∀ (s : State) r, (s.goodReply r).rotation = s.rotation := by
    intro s r
    unfold State.goodReply
    split <;> rfl
  unfold execReplyReceived
  split
  · dsimp only
    split
    · exact .next (hgood _ _)
    · exact .next (slotFault_rotation _ _ _)
  · exact .next rfl

theorem execDrainEnd_keepsRotation (s : State) : KeepsRotation s (execDrainEnd s) := by
  unfold execDrainEnd
  split
  · exact .next (slotFault_rotation _ _ _)
  · exact .next rfl

theorem execGuardEnd_keepsRotation (s : State) : KeepsRotation s (execGuardEnd s) := by
  unfold execGuardEnd
  split
  · dsimp only
    split
    · exact .settle fun _ => endStop_rotation
    · exact .next rfl
  · exact .next rfl

theorem execAdmissionTake_keepsRotation (s : State) : KeepsRotation s (execAdmissionTake s) := by
  unfold execAdmissionTake
  split
  · exact .next rfl
  · split
    · exact .next rfl
    · exact .settle fun _ => handleReply_rotation

theorem execLocalPosting_keepsRotation (c : LocalCondition) (s : State) :
    KeepsRotation s (execLocalPosting c s) := by
  unfold execLocalPosting
  split
  · exact .settle fun _ => post_rotation
  · exact .next rfl

theorem execBadCmd_keepsRotation {code : Byte} (hcode : wellFormed (.badCmd code) = true) (s : State) :
    KeepsRotation s (execBadCmd code s) := by
  have hnone : CmdCode.ofByte code = none := Option.isNone_iff_eq_none.mp hcode
  simp only [execBadCmd, hnone]
  exact .taken rfl (.next rfl)

theorem execRegisterWrite_keepsRotation {addr : BitVec 4} {value : Byte}
    (haddr : wellFormed (.registerWrite addr value) = true) (s : State) :
    KeepsRotation s (execRegisterWrite addr value s) := by
  have hown : (Reg.ofAddr addr).ownWrite = false := by simpa [wellFormed] using haddr
  unfold execRegisterWrite
  cases hreg : Reg.ofAddr addr with
  | cmdRes | floor | lven => simp [hreg, Reg.ownWrite] at hown
  | arg i =>
    refine .taken rfl (.next ?_)
    unfold State.setArg
    split <;> rfl
  | stat | claim | cwSrc | cwLvl | cwFlg | cwPl0 | cwPl1 | top => exact .next rfl

/-- Every well-formed command but a claim, RESTART and a pin reset leaves the rotation pointers alone (R51). -/
theorem exec_keepsRotation {c : Instr} (hwf : wellFormed c = true) (hrestart : c ≠ .restart)
    (hpin : ¬ ∃ periods, c = .pinReset periods) (hclaim : c ≠ .claim) (s : State) : KeepsRotation s (exec c s) := by
  cases c with
  | restart => exact absurd rfl hrestart
  | pinReset periods => exact absurd ⟨periods, rfl⟩ hpin
  | claim => exact absurd rfl hclaim
  | statRead => exact .next rfl
  | floorWrite value => exact .next rfl
  | lvenWrite reg value => cases reg <;> exact .next rfl
  | registerWrite addr value => exact execRegisterWrite_keepsRotation hwf s
  | badCmd code => exact execBadCmd_keepsRotation hwf s
  | start => exact .taken rfl (by split <;> exact .next rfl)
  | resume => exact .taken rfl (by split <;> exact .next rfl)
  | getLine => exact .taken rfl (by split <;> exact .next rfl)
  | getNode => exact .taken rfl (by split <;> exact .next rfl)
  | stop => exact execStop_keepsRotation s
  | restartClearStep => exact execRestartClearStep_keepsRotation s
  | complete => exact execComplete_keepsRotation s
  | completeTop => exact execCompleteTop_keepsRotation s
  | discard => exact execDiscard_keepsRotation s
  | getEntry => exact execGetEntry_keepsRotation s
  | setLine => exact execSetLine_keepsRotation s
  | setNode => exact execSetNode_keepsRotation s
  | setLink => exact execSetLink_keepsRotation s
  | retire => exact execRetire_keepsRotation s
  | retireWalkStep => exact execRetireWalkStep_keepsRotation s
  | schedulerChoice => exact execSchedulerChoice_keepsRotation s
  | frameTransmitted => exact execFrameTransmitted_keepsRotation s
  | replyWaitExpiry => exact execReplyWaitExpiry_keepsRotation s
  | replyReceived ldi => exact execReplyReceived_keepsRotation ldi s
  | drainEnd => exact execDrainEnd_keepsRotation s
  | guardEnd => exact execGuardEnd_keepsRotation s
  | admissionTake => exact execAdmissionTake_keepsRotation s
  | localPosting c => exact execLocalPosting_keepsRotation c s
  | startBit k =>
    change KeepsRotation s (execStartBit k s)
    unfold execStartBit
    split <;> exact .next rfl
  | framingError ldi =>
    change KeepsRotation s (execFramingError ldi s)
    unfold execFramingError
    split <;> exact .next rfl

/-! ## The claim -/

/-- The mark of R66 touches the stale flag only. -/
theorem markAtClaim_frame (s : State) (e : Entry) : s.markAtClaim e = { e with stale := (s.markAtClaim e).stale } := by
  unfold State.markAtClaim
  split
  · rfl
  · split <;> rfl

/-- What a claim can decide: nothing to take, or the winner, under the stale mark of R66. -/
theorem claimDecision_cases (s : State) :
    (∃ reason, s.claimDecision = .null reason) ∨
      ∃ i e, s.winner = some (i, e) ∧
        (s.claimDecision = .auto i (s.markAtClaim e) ∨ s.claimDecision = .ordinary i (s.markAtClaim e)) := by
  unfold State.claimDecision
  split
  · exact .inl ⟨_, rfl⟩
  · split
    · exact .inl ⟨_, rfl⟩
    · cases s.winner with
      | none => exact .inl ⟨_, rfl⟩
      | some found =>
        obtain ⟨i, e⟩ := found
        dsimp only
        split
        · split
          · exact .inl ⟨_, rfl⟩
          · exact .inr ⟨i, e, rfl, .inl rfl⟩
        · exact .inr ⟨i, e, rfl, .inr rfl⟩

/-- A claim takes nothing; or it takes the winner under the stale mark of R66, in a state `u` whose pointers are those of the
state before, and fills the window. -/
theorem execClaim_cases {s t : State} (h : execClaim s = .next t) :
    (∃ reason, t = s.claimNull reason) ∨
      ∃ (i : Fin 32) (e : Entry) (auto : Bool) (u : State), s.winner = some (i, e) ∧ u.rotation = s.rotation ∧
        t = u.fillWindow (s.markAtClaim e) (s.lineLevel (s.markAtClaim e)) auto := by
  unfold execClaim at h
  rcases claimDecision_cases s with ⟨reason, hnull⟩ | ⟨i, e, hwinner, hauto | hordinary⟩
  · rw [hnull] at h
    cases h
    exact .inl ⟨reason, rfl⟩
  · rw [hauto] at h
    cases h
    exact .inr ⟨i, e, true, _, hwinner, notify_rotation (s.setSlot i none) _ _, rfl⟩
  · rw [hordinary] at h
    cases h
    exact .inr ⟨i, e, false, (s.setSlot i none).push _ _, hwinner, rfl, rfl⟩

/-- Settles O10: the pointer that a claim sets is at the level and the source of the record it leaves in the window. -/
theorem rotationMovesOnlyAtClaims : Obligations.RotationMovesOnlyAtClaims := by
  intro c s t hexec
  constructor
  · intro hwf hmoved
    by_contra hother
    simp only [not_or] at hother
    obtain ⟨hrestart, hpin, hclaim⟩ := hother
    exact hmoved (exec_keepsRotation hwf hrestart hpin hclaim s t hexec)
  · rintro rfl
    rcases execClaim_cases hexec with ⟨reason, rfl⟩ | ⟨i, e, auto, u, hwinner, hu, rfl⟩
    · exact .inl ⟨rfl, rfl, reason, rfl⟩
    · refine .inr ⟨i, e, claimRecord (s.markAtClaim e) (s.lineLevel (s.markAtClaim e)) auto, hwinner, ?_, rfl, ?_⟩
      · rw [markAtClaim_frame]
        rfl
      · rw [markAtClaim_frame, ← hu]
        exact ⟨rfl, rfl, rfl⟩

end Sys2Proof.Machine
end

section
/-! SUPPORT. The registers of the Claim Window and TOP (R75, R78, R166). -/

namespace Sys2Proof.Machine

/-- Two fields of four bits each stand side by side in a byte (R166). -/
theorem packed_nibbles_toNat {hi lo : Nat} (hhi : hi < 16) (hlo : lo < 16) :
    (packed (field 4 hi + field 0 lo)).toNat = 16 * hi + lo := by
  simp only [packed, field, BitVec.toNat_ofNat]
  omega

/-- CW_FLG of a claimed record, its flags each at one bit (R75, R166). -/
theorem claimed_flg_toNat {r : ClaimRecord} (hpayload : r.payload.length ≤ 2) :
    (ClaimWindow.claimed r).flg.toNat =
      128 + 16 * r.payload.length + 8 * r.repost.toNat + 4 * r.stale.toNat + 2 * r.auto.toNat + r.held.toNat := by
  have hheld := r.held.toNat_le
  have hauto := r.auto.toNat_le
  have hstale := r.stale.toNat_le
  have hrepost := r.repost.toNat_le
  simp only [ClaimWindow.flg, packed, flag, field, BitVec.toNat_ofNat, Bool.toNat_true]
  omega

/-- The top level is the captured level of the last entry of the stack (R47). -/
theorem topLevel_concat {s : State} {below : List StackEntry} {top : StackEntry} (h : s.stack = below ++ [top]) :
    s.topLevel = some top.level := by
  simp [State.topLevel, State.topEntry, h]

theorem topByte_empty {s : State} (h : s.stack = []) : s.topByte = 0x00#8 := by
  simp [State.topByte, State.topLevel, State.topEntry, h, packed, field]

theorem topByte_concat_toNat {s : State} {below : List StackEntry} {top : StackEntry} (h : s.stack = below ++ [top])
    (hdepth : s.stack.length ≤ Config.stackMax) : s.topByte.toNat = 16 * top.level.val + (below.length + 1) := by
  have hlength : s.stack.length = below.length + 1 := by simp [h]
  have hle : s.stack.length ≤ 8 := hdepth
  simp only [State.topByte, topLevel_concat h]
  rw [packed_nibbles_toNat top.level.isLt (by omega), hlength]

/-- Settles O16, register by register. -/
theorem claimWindowAndTopRegisters : Obligations.ClaimWindowAndTopRegisters := by
  intro s
  have hsrc : s.readRegister 0x7#4 = s.window.src := rfl
  have hlvl : s.readRegister 0x8#4 = s.window.lvl := rfl
  have hflg : s.readRegister 0x9#4 = s.window.flg := rfl
  have hpl0 : s.readRegister 0xA#4 = s.window.pl0 := rfl
  have hpl1 : s.readRegister 0xB#4 = s.window.pl1 := rfl
  rw [hsrc, hlvl, hflg, hpl0, hpl1]
  refine ⟨fun reason k hk hnull => ?_, fun r hclaimed hcount hpayload => ?_, topByte_empty, ?_⟩
  · rw [hnull]
    refine ⟨rfl, rfl, ?_, rfl, rfl⟩
    simp only [List.mem_cons, Prod.mk.injEq, List.not_mem_nil, or_false] at hk
    rcases hk with ⟨rfl, rfl⟩ | ⟨rfl, rfl⟩ | ⟨rfl, rfl⟩ | ⟨rfl, rfl⟩ | ⟨rfl, rfl⟩ <;> rfl
  · rw [hclaimed]
    exact ⟨packed_nibbles_toNat r.source.isLt (by omega), packed_nibbles_toNat r.level.isLt (by omega),
      claimed_flg_toNat hpayload, rfl, rfl⟩
  · intro below top hstack hordered
    exact topByte_concat_toNat hstack hordered.1

end Sys2Proof.Machine
end

section
/-! SUPPORT. Claims (R59 to R67): what the winner is known by, the stale mark and the notice of R66 and R94, the decision of
R60, and the commands' outcomes. -/

namespace Sys2Proof.Machine

/-! ## The winner -/

/-- With no candidate there is no winner (R49). -/
theorem winner_eq_none {s : State} (h : s.candidates = []) : s.winner = none := by
  simp only [State.winner, h]
  rfl

/-- The winner stands in the slot named, and its line's level passes the three tests: it is the level of a candidate on the
same line (R48, R49). -/
theorem winner_spec {s : State} {i : Fin 32} {e : Entry} (h : s.winner = some (i, e)) :
    s.table[i] = some e ∧ s.levelPasses (s.lineLevel e) = true := by
  simp only [State.winner, Option.bind_eq_bind, Option.bind_eq_some_iff] at h
  obtain ⟨level, -, src, -, line, hline, hpending⟩ := h
  obtain ⟨hslot, hon⟩ := findPending_some hpending
  have hany := List.find?_some hline
  obtain ⟨c, hc, hcon⟩ := List.any_eq_true.mp hany
  obtain ⟨hsource, hlineEq⟩ := on_iff.mp hon
  obtain ⟨hcsource, hcline⟩ := on_iff.mp hcon
  have hlevel : s.lineLevel e = s.lineLevel c := by
    simp only [State.lineLevel, hsource, hlineEq, hcsource, hcline]
  rw [hlevel]
  exact ⟨hslot, (mem_candidates.mp (List.mem_of_mem_filter hc)).2⟩

/-- A level above the top level is above every captured level, which increase from bottom to top (R70). -/
theorem level_lt_of_above_top {s : State} (hordered : s.stack.Pairwise fun a b => a.level < b.level) {l : Level}
    (htop : ∀ top, s.topLevel = some top → top < l) {x : StackEntry} (hx : x ∈ s.stack) : x.level < l := by
  rcases List.eq_nil_or_concat s.stack with hnil | ⟨below, top, hstack⟩
  · simp [hnil] at hx
  · rw [List.concat_eq_append] at hstack
    have hlt : top.level < l := htop _ (by simp [State.topLevel, State.topEntry, hstack])
    rw [hstack] at hx hordered
    rcases List.mem_append.mp hx with hbelow | hlast
    · exact lt_trans ((List.pairwise_append.mp hordered).2.2 x hbelow top (List.mem_singleton_self _)) hlt
    · rwa [List.mem_singleton.mp hlast]

/-- The winner's level is above every captured level (R48, R70). -/
theorem winner_above_stack {s : State} (hordered : s.StackOrdered) {i : Fin 32} {e : Entry}
    (h : s.winner = some (i, e)) : ∀ x ∈ s.stack, x.level < s.lineLevel e :=
  fun _ => level_lt_of_above_top hordered.2 (levelPasses_iff.mp (winner_spec h).2).2.2

/-! ## The node of an entry, the stale mark and the notice -/

theorem nodeOf_eq_some_iff {src : Source} {n : Node} : nodeOf src = some n ↔ src = n.castSucc := by
  revert src n
  decide

theorem nodeOf_local : nodeOf 15 = none := rfl

theorem isActive_eq_false {s : State} {n : Node} : s.isActive n = false ↔ s.nodes[n].state ≠ .active :=
  decide_eq_false_iff_not

/-- The mark falls on a remote entry whose node is not ACTIVE (R66). -/
theorem markAtClaim_eq (s : State) (e : Entry) :
    s.markAtClaim e =
      { e with stale := e.stale || decide (∃ n : Node, e.source = n.castSucc ∧ s.nodes[n].state ≠ .active) } := by
  unfold State.markAtClaim
  simp only [← nodeOf_eq_some_iff, ← isActive_eq_false]
  cases nodeOf e.source with
  | none => simp
  | some n => cases h : s.isActive n <;> simp [Entry.markStale, h]

section
variable {s : State} {e : Entry} {n : Node}

theorem markAtClaim_active (hsource : e.source = n.castSucc) (hactive : s.nodes[n].state = .active) :
    s.markAtClaim e = e := by
  have h : s.isActive n = true := decide_eq_true hactive
  simp [State.markAtClaim, nodeOf_eq_some_iff.mpr hsource, h]

/-- An entry that is stale already, or of a node that is not ACTIVE, is claimed stale (R66). -/
theorem markAtClaim_stale (hsource : e.source = n.castSucc) (h : e.stale = true ∨ s.nodes[n].state ≠ .active) :
    s.markAtClaim e = { e with stale := true } := by
  have hmarked : (e.stale || decide (∃ n : Node, e.source = n.castSucc ∧ s.nodes[n].state ≠ .active)) = true :=
    Bool.or_eq_true_iff.mpr (h.imp_right fun hinactive => decide_eq_true ⟨n, hsource, hinactive⟩)
  rw [markAtClaim_eq, hmarked]

theorem markAtClaim_local (hsource : e.source = 15) : s.markAtClaim e = e := by
  simp [State.markAtClaim, hsource, nodeOf_local]

theorem notice_remote (hsource : e.source = n.castSucc) (hstale : e.stale = false) : e.notice = some n := by
  simp [Entry.notice, hstale, nodeOf_eq_some_iff.mpr hsource]

theorem notice_stale (hstale : e.stale = true) : e.notice = none := by
  simp [Entry.notice, hstale]

theorem notice_local (hsource : e.source = 15) : e.notice = none := by
  simp [Entry.notice, hsource, nodeOf_local]

theorem notify_none {outcome : DoneOutcome} (h : e.notice = none) : s.notify e outcome = s := by
  simp only [State.notify, h]

theorem notify_some {outcome : DoneOutcome} (h : e.notice = some n) :
    s.notify e outcome = s.append n (.done e.line outcome) := by
  simp only [State.notify, h]

end

/-! ## The decision -/

section
variable {s : State}

theorem claimDecision_config (hmode : s.mode = .config) : s.claimDecision = .null .notRunning :=
  if_pos hmode

theorem claimDecision_stackFull (hmode : s.mode ≠ .config) (hfull : 8 ≤ s.stack.length) :
    s.claimDecision = .null .stackFull :=
  (if_neg hmode).trans (if_pos (decide_eq_true hfull))

/-- Past the first two tests the winner decides (R60). -/
theorem claimDecision_open (hmode : s.mode ≠ .config) (hroom : s.stack.length < 8) :
    s.claimDecision =
      match s.winner with
      | none => .null .none
      | some (i, e) =>
        if s.lineMap[e.source][e.line].auto then
          if (s.markAtClaim e).notice.isSome && s.queueFull then .null .queueFull else .auto i (s.markAtClaim e)
        else .ordinary i (s.markAtClaim e) := by
  have hstack : s.stackFull = false := decide_eq_false (not_le.mpr hroom)
  simp only [State.claimDecision, hmode, hstack, Bool.false_eq_true, if_false]
  cases s.winner with
  | none => rfl
  | some found =>
    dsimp only
    rw [markAtClaim_eq]
    rfl

section
variable {i : Fin 32} {e : Entry} (hmode : s.mode ≠ .config) (hroom : s.stack.length < 8)
  (hwinner : s.winner = some (i, e))
include hmode hroom hwinner

theorem claimDecision_ordinary (hauto : s.lineMap[e.source][e.line].auto = false) :
    s.claimDecision = .ordinary i (s.markAtClaim e) := by
  rw [claimDecision_open hmode hroom, hwinner]
  simp only [hauto, Bool.false_eq_true, if_false]

theorem claimDecision_auto (hauto : s.lineMap[e.source][e.line].auto = true) :
    s.claimDecision =
      if (s.markAtClaim e).notice.isSome && s.queueFull then .null .queueFull else .auto i (s.markAtClaim e) := by
  rw [claimDecision_open hmode hroom, hwinner]
  simp only [hauto, if_true]

/-- An AUTO claim that owes no DONE needs no slot of the queue (R64, R67). -/
theorem claimDecision_auto_silent (hauto : s.lineMap[e.source][e.line].auto = true)
    (hnotice : (s.markAtClaim e).notice = none) : s.claimDecision = .auto i (s.markAtClaim e) := by
  simp [claimDecision_auto hmode hroom hwinner hauto, hnotice]

end

/-! ## The outcome of the decision -/

theorem execClaim_null {reason : NullReason} (h : s.claimDecision = .null reason) :
    execClaim s = .next (s.claimNull reason) := by
  simp only [execClaim, h]

theorem execClaim_auto {i : Fin 32} {e : Entry} (h : s.claimDecision = .auto i e) :
    execClaim s = .next (s.claimAuto i e) := by
  simp only [execClaim, h]

theorem execClaim_ordinary {i : Fin 32} {e : Entry} (h : s.claimDecision = .ordinary i e) :
    execClaim s = .next (s.claimOrdinary i e) := by
  simp only [execClaim, h]

end

/-! ## The claim that takes nothing -/

/-- Settles O20: each of the four cases is decided null, in the order of the tests. -/
theorem claimThatTakesNothing : Obligations.ClaimThatTakesNothing := by
  intro s
  refine ⟨fun hmode => ?_, fun hmode hfull => ?_, fun hmode hroom hnone => ?_, ?_⟩
  · exact execClaim_null (claimDecision_config hmode)
  · exact execClaim_null (claimDecision_stackFull hmode hfull)
  · refine execClaim_null ?_
    rw [claimDecision_open hmode hroom, winner_eq_none hnone]
  · intro hmode hroom hfull i e n hwinner hauto hsource hstale hactive
    have hqueue : s.queueFull = true := decide_eq_true hfull
    refine execClaim_null ?_
    simp [claimDecision_auto hmode hroom hwinner hauto, markAtClaim_active hsource hactive,
      notice_remote hsource hstale, hqueue]

/-! ## The claims that take the winner -/

/-- Settles O21: the claim is decided ordinary, and the level above the stack is that of `winner_above_stack`. -/
theorem ordinaryClaimPushesTheWinner : Obligations.OrdinaryClaimPushesTheWinner := by
  rintro s i e e' l hmode hroom hwinner hauto rfl rfl
  refine ⟨?_, fun hordered => winner_above_stack hordered hwinner⟩
  refine (execClaim_ordinary (claimDecision_ordinary hmode hroom hwinner hauto)).trans ?_
  rw [markAtClaim_eq]
  rfl

/-- Settles O22: the three forms are the winners that owe a DONE, that are stale at the claim, and that are local. -/
theorem autoClaimEndsTheWinner : Obligations.AutoClaimEndsTheWinner := by
  rintro s i e l hmode hroom hwinner hauto rfl
  refine ⟨fun n hsource hstale hactive hqueue => ?_, fun n hsource hstale => ?_, fun hsource => ?_⟩
  · have hmark := markAtClaim_active hsource hactive
    have hslot : s.queueFull = false := decide_eq_false (not_le.mpr hqueue)
    have hdecision : s.claimDecision = .auto i e := by
      simp [claimDecision_auto hmode hroom hwinner hauto, hmark, hslot]
    rw [← hstale]
    refine (execClaim_auto hdecision).trans ?_
    rw [State.claimAuto, notify_some (notice_remote hsource hstale)]
    rfl
  · have hmark := markAtClaim_stale hsource hstale
    have hnotice : ({ e with stale := true } : Entry).notice = none := notice_stale rfl
    refine (execClaim_auto (claimDecision_auto_silent hmode hroom hwinner hauto (hmark ▸ hnotice))).trans ?_
    rw [hmark, State.claimAuto, notify_none hnotice]
    rfl
  · have hmark : s.markAtClaim e = e := markAtClaim_local hsource
    have hnotice : e.notice = none := notice_local hsource
    refine (execClaim_auto (claimDecision_auto_silent hmode hroom hwinner hauto (hmark.symm ▸ hnotice))).trans ?_
    rw [hmark, State.claimAuto, notify_none hnotice, ← hsource]
    rfl

end Sys2Proof.Machine
end

section
/-! SUPPORT. The bounds of the Service Stack, the Outbound Queue and the remote pool (R70, R120, R25): each operation and
each command keeps them. -/

namespace Sys2Proof.Machine

/-- From `s` to `t` the three laws are kept, that of the pool as far as `unique` holds: the premise of R23 under which a
removal by tag removes the entry meant. -/
structure KeepsBounds (unique : Prop) (s t : State) : Prop where
  stack : s.StackOrdered → t.StackOrdered
  queue : s.QueueBounded → t.QueueBounded
  pool : unique → s.PoolBounded → t.PoolBounded

namespace KeepsBounds

variable {unique : Prop} {s t u : State}

theorem trans (hst : KeepsBounds unique s t) (htu : KeepsBounds unique t u) : KeepsBounds unique s u where
  stack := htu.stack ∘ hst.stack
  queue := htu.queue ∘ hst.queue
  pool h := htu.pool h ∘ hst.pool h

/-- No captured level is new and none moves past another, the queue is no longer and the pool no fuller. -/
theorem of_le (hstack : List.Sublist (t.stack.map (·.level)) (s.stack.map (·.level)))
    (hqueue : t.queue.length ≤ s.queue.length) (hpool : unique → t.poolCount ≤ s.poolCount) :
    KeepsBounds unique s t where
  stack := by
    rintro ⟨hdepth, hordered⟩
    have hlength : t.stack.length ≤ s.stack.length := by simpa using hstack.length_le
    exact ⟨hlength.trans hdepth, List.pairwise_map.mp ((List.pairwise_map.mpr hordered).sublist hstack)⟩
  queue := hqueue.trans
  pool h := (hpool h).trans

/-- What changes the Pending Table alone keeps the bounds if the pool grows no fuller. -/
theorem of_pool_le (hpool : t.poolCount ≤ s.poolCount) (hkept : (t.stack, t.queue) = (s.stack, s.queue)) :
    KeepsBounds unique s t := by
  obtain ⟨hstack, hqueue⟩ := Prod.mk.inj hkept
  exact .of_le (by rw [hstack]) (by rw [hqueue]) fun _ => hpool

/-- What leaves the Pending Table, the stack and the queue alone keeps the bounds. -/
theorem same (hkept : (t.table, t.stack, t.queue) = (s.table, s.stack, s.queue)) : KeepsBounds unique s t := by
  obtain ⟨htable, hkept⟩ := Prod.mk.inj hkept
  refine .of_pool_le (le_of_eq ?_) hkept
  simp only [State.poolCount, State.pendingEntries, htable, (Prod.mk.inj hkept).1]

end KeepsBounds

/-! ## The pool count -/

/-- The count over the full slots after one slot is written: what it held no longer counts, and what it holds now does. -/
theorem countP_filterMap_set (p : Entry → Bool) (x : Option Entry) {l : List (Option Entry)} {i : Nat}
    (hi : i < l.length) :
    ((l.set i x).filterMap id).countP p + l[i].toList.countP p =
      (l.filterMap id).countP p + x.toList.countP p := by
  have hcons : ∀ (o : Option Entry) (l : List (Option Entry)),
      ((o :: l).filterMap id).countP p = o.toList.countP p + (l.filterMap id).countP p := by
    rintro (_ | e) l <;> simp [List.countP_cons, Nat.add_comm]
  induction l generalizing i with
  | nil => cases hi
  | cons o l ih =>
    cases i with
    | zero =>
      simp only [List.set_cons_zero, List.getElem_cons_zero, hcons]
      omega
    | succ i =>
      have := ih (Nat.lt_of_succ_lt_succ hi)
      simp only [List.set_cons_succ, List.getElem_cons_succ, hcons]
      omega

theorem poolCount_setSlot (s : State) (i : Fin 32) (x : Option Entry) :
    (s.setSlot i x).poolCount + s.table[i].toList.countP Entry.remote =
      s.poolCount + x.toList.countP Entry.remote := by
  have hset : (((s.table.toList.set i x).filterMap id).countP Entry.remote + s.table[i].toList.countP Entry.remote =
      (s.table.toList.filterMap id).countP Entry.remote + x.toList.countP Entry.remote) :=
    countP_filterMap_set Entry.remote x (by simp)
  simp only [State.poolCount, State.pendingEntries, State.setSlot_stack, State.setSlot_table, Vector.toList_set]
  omega

/-- An insertion adds its entry to the pool if it is remote (R25). -/
theorem insertEntry_poolCount {s t : State} {src : Source} {line : Line} {kind : Kind} {payload : List Byte}
    {repost : Bool} (h : s.insertEntry src line kind payload repost = .ok t) :
    t.poolCount = s.poolCount + (nodeOf src).isSome.toNat := by
  obtain ⟨i, tag, hfree, -, rfl⟩ := insertEntry_ok h
  have hset := poolCount_setSlot s i (some ⟨tag, src, line, kind, 1, payload, false, repost⟩)
  rw [freeSlot_some hfree] at hset
  refine hset.trans (congrArg (s.poolCount + ·) ?_)
  cases hremote : (nodeOf src).isSome <;> simp [Entry.remote, hremote]

theorem insertEntry_stack_queue {s t : State} {src : Source} {line : Line} {kind : Kind} {payload : List Byte}
    {repost : Bool} (h : s.insertEntry src line kind payload repost = .ok t) :
    t.stack = s.stack ∧ t.queue = s.queue := by
  obtain ⟨i, tag, -, -, rfl⟩ := insertEntry_ok h
  exact ⟨rfl, rfl⟩

/-- The stack around the entry that a look-up by tag finds. -/
theorem stackTagged_split {s : State} {tag : Tag} {e : StackEntry} (h : s.stackTagged tag = some e) :
    e.entry.tag = tag ∧ ∃ below above, s.stack = below ++ e :: above ∧ ∀ x ∈ below, x.entry.tag ≠ e.entry.tag := by
  obtain ⟨htag, below, above, hstack, hbelow⟩ := List.find?_eq_some_iff_append.mp h
  obtain rfl : e.entry.tag = tag := of_decide_eq_true htag
  exact ⟨rfl, below, above, hstack, by simpa using hbelow⟩

/-- The removal of the entry that its tag means takes it from the pool. -/
theorem removeStacked_poolCount {s : State} {e : StackEntry} (h : s.stackTagged e.entry.tag = some e)
    (hremote : e.entry.remote = true) : (s.removeStacked e.entry.tag).poolCount + 1 = s.poolCount := by
  obtain ⟨-, below, above, hstack, hbelow⟩ := stackTagged_split h
  have hremoved := removeStacked_middle s below above e hstack hbelow
  have hcount : (e :: above).countP (fun e => e.entry.remote) = above.countP (fun e => e.entry.remote) + 1 :=
    List.countP_cons_of_pos hremote
  simp only [State.poolCount, State.pendingEntries, State.removeStacked_table, hremoved, hstack, List.countP_append,
    hcount]
  omega

/-- Where tags are unique, the tag of the top entry means it. -/
theorem stackTagged_top {s : State} (htags : s.TagsUnique) {e : StackEntry} (htop : s.topEntry = some e) :
    s.stackTagged e.entry.tag = some e := by
  have hstack : s.stack = s.stack.dropLast ++ [e] := (List.dropLast_append_getLast? e htop).symm
  have hnodup : (s.stack.map (·.entry.tag)).Nodup := htags.1.of_append_right
  rw [hstack, List.map_append, List.nodup_append] at hnodup
  refine stackTagged_middle s s.stack.dropLast [] e hstack fun x hx => ?_
  exact hnodup.2.2 _ (List.mem_map_of_mem hx) _ (by simp)

/-! ## Operations on the Pending Table -/

section
variable {unique : Prop} (s : State)

/-- A slot written with no entry, with a local one, or in place of a remote one. -/
theorem setSlot_keepsBounds (i : Fin 32) (x : Option Entry)
    (h : ∀ e ∈ x, e.remote = true → ∃ f ∈ s.table[i], f.remote = true) : KeepsBounds unique s (s.setSlot i x) := by
  refine .of_pool_le ?_ rfl
  have hset := poolCount_setSlot s i x
  have hle : x.toList.countP Entry.remote ≤ s.table[i].toList.countP Entry.remote := by
    cases x with
    | none => simp
    | some e =>
      by_cases hremote : e.remote = true
      · obtain ⟨f, hf, hfremote⟩ := h e rfl hremote
        rw [Option.mem_def.mp hf]
        simp [hremote, hfremote]
      · simp [hremote]
  omega

theorem clearSlot_keepsBounds (i : Fin 32) : KeepsBounds unique s (s.setSlot i none) :=
  setSlot_keepsBounds s i none (by simp)

theorem rewriteSlot_keepsBounds {i : Fin 32} {e e' : Entry} (hslot : s.table[i] = some e)
    (hsource : e'.source = e.source) : KeepsBounds unique s (s.setSlot i (some e')) := by
  refine setSlot_keepsBounds s i (some e') ?_
  rintro _ ⟨⟩ hremote
  exact ⟨e, hslot, by rwa [Entry.remote, ← hsource]⟩

theorem mapPending_keepsBounds {f : Entry → Option Entry} (hf : ∀ e, ∀ e' ∈ f e, e'.source = e.source) :
    KeepsBounds unique s (s.mapPending f) := by
  refine .of_pool_le (Nat.add_le_add_right ?_ _) rfl
  have hentries : (s.mapPending f).pendingEntries = s.pendingEntries.filterMap f := by
    simp only [State.pendingEntries, State.mapPending_table, mapSlots_toList, List.filterMap_map,
      List.filterMap_filterMap]
    rfl
  rw [hentries, List.countP_filterMap]
  refine List.countP_mono_left fun e _ hkept => ?_
  cases hfe : f e with
  | none => simp [hfe] at hkept
  | some e' => simpa [hfe, Entry.remote, hf e e' hfe] using hkept

end

/-! ## Operations on the stack and the queue -/

section
variable {unique : Prop} (s : State)

theorem removeStacked_keepsBounds (tag : Tag) : KeepsBounds unique s (s.removeStacked tag) := by
  have hsub : List.Sublist (s.removeStacked tag).stack s.stack := List.eraseP_sublist
  exact .of_le (hsub.map _) le_rfl fun _ => Nat.add_le_add_left hsub.countP_le _

/-- An update of each stack entry that leaves its level and its source alone. -/
theorem mapStack_keepsBounds {t : State} {f : StackEntry → StackEntry} (hlevel : ∀ e, (f e).level = e.level)
    (hsource : ∀ e, (f e).entry.source = e.entry.source) (hstack : t.stack = s.stack.map f)
    (hkept : (t.table, t.queue) = (s.table, s.queue)) : KeepsBounds unique s t := by
  obtain ⟨htable, hqueue⟩ := Prod.mk.inj hkept
  refine .of_le ?_ (by rw [hqueue]) fun _ => ?_
  · simp [hstack, Function.comp_def, hlevel]
  · simp [State.poolCount, State.pendingEntries, htable, hstack, List.countP_map, Function.comp_def, Entry.remote,
      hsource]

theorem markStacked_keepsBounds (n : Node) : KeepsBounds unique s (s.markStacked n) := by
  refine mapStack_keepsBounds s (fun e => ?_) (fun e => ?_) rfl rfl
  · split <;> rfl
  · split <;> rfl

theorem markReleased_keepsBounds (src : Source) (line : Line) :
    KeepsBounds unique s { s with stack := markReleased src line s.stack } := by
  rcases markReleased_spec src line s.stack with ⟨below, e, above, hstack, -, -, -, hmarked⟩ | ⟨-, hmarked⟩
  · rw [hmarked]
    refine .of_le ?_ le_rfl fun _ => ?_
    · simp [hstack]
    · simp [State.poolCount, State.pendingEntries, hstack, List.countP_cons]
  · rw [hmarked]
    exact .same rfl

/-- A frame for which there is a free slot (R120). -/
theorem append_keepsBounds (hfree : s.queueFull = false) (n : Node) (body : OutBody) :
    KeepsBounds unique s (s.append n body) where
  stack := id
  queue _ := by
    have hlt : s.queue.length < Config.queueMax := not_le.mp (of_decide_eq_false hfree)
    simpa [State.QueueBounded] using hlt
  pool _ := id

theorem removeDones_length (n : Node) : (s.removeDones n).queue.length ≤ s.queue.length :=
  List.length_filter_le ..

theorem removeDones_keepsBounds (n : Node) : KeepsBounds unique s (s.removeDones n) :=
  .of_le (.refl _) (removeDones_length s n) fun _ => le_rfl

/-- A DONE that is owed is queued where there is a free slot (R94). -/
theorem notify_keepsBounds {e : Entry} (hfree : (e.notice.isSome && s.queueFull) = false) (outcome : DoneOutcome) :
    KeepsBounds unique s (s.notify e outcome) := by
  cases hnotice : e.notice with
  | none =>
    rw [notify_none hnotice]
    exact .same rfl
  | some n =>
    rw [notify_some hnotice]
    exact append_keepsBounds s (by simpa [hnotice] using hfree) _ _

/-! ## The work and the state of a node -/

theorem raise_keepsBounds (c : LocalCondition) : KeepsBounds unique s (s.raise c) := .same rfl

theorem dismissWork_keepsBounds (n : Node) : KeepsBounds unique s (s.dismissWork n) := by
  refine (mapPending_keepsBounds s ?_).trans ((markStacked_keepsBounds _ n).trans (removeDones_keepsBounds _ n))
  intro e e' he'
  split at he'
  · split at he'
    · cases he'
      rfl
    · cases he'
  · cases he'
    rfl

theorem loseNode_keepsBounds (n : Node) (faults : Nat) : KeepsBounds unique s (s.loseNode n faults) := by
  have hrecord : KeepsBounds unique s
      (s.setNode n { s.nodes[n] with state := .lost, admittedLimit := 0, faults }) := .same rfl
  exact (hrecord.trans (dismissWork_keepsBounds _ n)).trans (.same rfl)

theorem countFault_keepsBounds (n : Node) : KeepsBounds unique s (s.countFault n) := by
  unfold State.countFault
  dsimp only
  split
  · split
    · exact loseNode_keepsBounds s n _
    · exact .same rfl
  · exact .same rfl

/-- A join is granted where there is a free slot for its ADMIT (R133). -/
theorem admitNode_keepsBounds (hfree : s.queueFull = false) (n : Node) (declared : Fin 9) :
    KeepsBounds unique s (s.admitNode n declared) := by
  have hrecord : KeepsBounds unique s (s.setNode n
      { s.nodes[n].clearSequence with
        state := .joining, declared, admittedLimit := s.nodes[n].configLimit }) := .same rfl
  exact hrecord.trans (append_keepsBounds _ (by exact hfree) n _)

theorem restartNode_keepsBounds (n : Node) (declared : Fin 9) :
    KeepsBounds unique s (s.restartNode n declared) := by
  have hcleared : KeepsBounds unique s ((s.dismissWork n).setNode n s.nodes[n].clearSequence) :=
    (dismissWork_keepsBounds s n).trans (.same rfl)
  unfold State.restartNode
  dsimp only
  generalize (s.dismissWork n).setNode n s.nodes[n].clearSequence = u at hcleared ⊢
  refine KeepsBounds.trans ?_ (raise_keepsBounds _ _)
  split
  next hjoin =>
    obtain ⟨-, hfree⟩ := Bool.and_eq_true_iff.mp hjoin
    exact hcleared.trans (admitNode_keepsBounds _ (by simpa using hfree) n declared)
  next => exact hcleared.trans (.same rfl)

theorem joinRequest_keepsBounds (n : Node) (declared : Fin 9) :
    KeepsBounds unique s (s.joinRequest n declared) := by
  unfold State.joinRequest
  split
  next => exact .same rfl
  next hfree => exact admitNode_keepsBounds s (eq_false_of_ne_true hfree) n declared

theorem hello_keepsBounds (n : Node) (declared : Fin 9) : KeepsBounds unique s (s.hello n declared) := by
  unfold State.hello
  cases s.nodes[n].state
  case absent | lost =>
    dsimp only
    split
    · exact joinRequest_keepsBounds s n declared
    · exact .same rfl
  case active => exact restartNode_keepsBounds s n declared
  case joining | leaving => exact .same rfl

/-- RETIRE queues its EJECT where there is a free slot (R138). -/
theorem beginRetire_keepsBounds (hfree : s.queueFull = false) (n : Node) :
    KeepsBounds unique s (s.beginRetire n) := by
  have hrecord : KeepsBounds unique s
      (s.setNode n { s.nodes[n] with state := .leaving, join := false, admittedLimit := 0 }) := .same rfl
  have hdismissed := (hrecord.trans (removeDones_keepsBounds _ n)).trans (markStacked_keepsBounds _ n)
  have hmarked := hdismissed.trans
    (mapPending_keepsBounds _ (f := fun e => some (if e.ofNode n then e.markStale else e)) (by
      rintro e _ ⟨⟩
      split <;> rfl))
  refine (hmarked.trans (append_keepsBounds _ ?_ n .eject)).trans (.same rfl)
  have hlt : s.queue.length < Config.queueMax := not_le.mp (of_decide_eq_false hfree)
  exact decide_eq_false (not_le.mpr ((removeDones_length s n).trans_lt hlt))

theorem beginRestart_keepsBounds : KeepsBounds unique s s.beginRestart :=
  .of_le (List.nil_sublist _) (Nat.zero_le _) fun _ => Nat.add_le_add_left (Nat.zero_le _) _

theorem pinReset_keepsBounds : KeepsBounds unique s s.pinReset where
  stack _ := ⟨Nat.zero_le _, .nil⟩
  queue _ := Nat.zero_le _
  pool _ _ := by
    have hreset : State.reset.PoolBounded := by decide
    exact hreset

end

/-! ## Insertions and local postings -/

section
variable {unique : Prop} {s t : State}

/-- A new remote entry passes the capacity test (R26). -/
theorem insertRemote_keepsBounds {n : Node} {src : Source} {line : Line} {kind : Kind} {payload : List Byte}
    {repost : Bool} (hcapacity : s.hasCapacity n = true) (h : s.insertEntry src line kind payload repost = .ok t) :
    KeepsBounds unique s t := by
  obtain ⟨hstack, hqueue⟩ := insertEntry_stack_queue h
  obtain ⟨hpool, -⟩ := Bool.and_eq_true_iff.mp hcapacity
  have hlt : s.poolCount < Config.poolMax := of_decide_eq_true hpool
  have hcount := insertEntry_poolCount h
  have hone := (nodeOf src).isSome.toNat_le
  refine ⟨fun hs => ?_, fun hs => ?_, fun _ _ => ?_⟩
  · rwa [State.StackOrdered, hstack]
  · rwa [State.QueueBounded, hqueue]
  · rw [State.PoolBounded]
    omega

theorem insertLocal_keepsBounds {line : Line} {kind : Kind} {payload : List Byte} {repost : Bool}
    (h : s.insertEntry localSource line kind payload repost = .ok t) : KeepsBounds unique s t := by
  obtain ⟨hstack, hqueue⟩ := insertEntry_stack_queue h
  exact .of_pool_le (insertEntry_poolCount h).le (Prod.ext hstack hqueue)

theorem post_keepsBounds {line : Line} {payload : List Byte} (h : s.post line payload = .ok t) :
    KeepsBounds unique s t := by
  rcases post_ok h with ⟨-, rfl⟩ | ⟨i, e, -, hpending, rfl⟩ | ⟨-, -, hinsert⟩
  · exact .same rfl
  · exact rewriteSlot_keepsBounds s (findPending_some hpending).1 rfl
  · exact insertLocal_keepsBounds hinsert

theorem postAll_keepsBounds {cs : List LocalCondition} {s t : State} (h : cs.foldlM State.postCondition s = .ok t) :
    KeepsBounds unique s t := by
  induction cs generalizing s with
  | nil =>
    cases h
    exact .same rfl
  | cons c cs ih =>
    obtain ⟨u, hc, hcs⟩ := bind_ok h
    exact (post_keepsBounds hc).trans (ih hcs)

theorem endStop_keepsBounds (h : s.endStop = .ok t) : KeepsBounds unique s t := by
  obtain ⟨u, hraised, h⟩ := bind_ok h
  obtain ⟨v, hdone, h⟩ := bind_ok h
  cases h
  have hcleared : KeepsBounds unique s { s with raised := [] } := .same rfl
  exact ((hcleared.trans (postAll_keepsBounds hraised)).trans (post_keepsBounds hdone)).trans (.same rfl)

theorem endRetire_keepsBounds (h : s.endRetire = .ok t) : KeepsBounds unique s t := by
  obtain ⟨u, hdone, h⟩ := bind_ok h
  cases h
  exact (post_keepsBounds hdone).trans (.same rfl)

end

/-! ## Completion and discard -/

section
variable {unique : Prop} {s t : State} {e : StackEntry}

theorem endSilently_keepsBounds : KeepsBounds unique s (s.endSilently e) :=
  (removeStacked_keepsBounds s e.entry.tag).trans (.same rfl)

theorem endWithDone_keepsBounds (n : Node) : KeepsBounds unique s (s.endWithDone e n) := by
  unfold State.endWithDone
  split
  next => exact .same rfl
  next hfree =>
    have hremoved : KeepsBounds unique s (s.removeStacked e.entry.tag) := removeStacked_keepsBounds s _
    exact (hremoved.trans (append_keepsBounds (s.removeStacked _) (eq_false_of_ne_true hfree) n _)).trans (.same rfl)

/-- A repost puts one remote entry in the Pending Table and takes one from the stack, the entry that its tag means. -/
theorem repost_keepsBounds (hmeant : unique → s.stackTagged e.entry.tag = some e) (hremote : e.entry.remote = true)
    (h : s.repost e = .ok t) : KeepsBounds unique s t := by
  obtain ⟨u, hinsert, h⟩ := bind_ok h
  cases h
  obtain ⟨hstack, hqueue⟩ := insertEntry_stack_queue hinsert
  have hremoved : KeepsBounds unique u (u.removeStacked e.entry.tag) := removeStacked_keepsBounds u _
  have hrepost : KeepsBounds unique s (u.removeStacked e.entry.tag) := by
    refine ⟨fun hs => ?_, fun hs => ?_, fun hunique hs => ?_⟩
    · exact hremoved.stack (by rwa [State.StackOrdered, hstack])
    · exact hremoved.queue (by rwa [State.QueueBounded, hqueue])
    · have hu : u.stackTagged e.entry.tag = some e := by
        rw [State.stackTagged, hstack]
        exact hmeant hunique
      have hout := removeStacked_poolCount hu hremote
      have hin := insertEntry_poolCount hinsert
      have hone := (nodeOf e.entry.source).isSome.toNat_le
      rw [State.PoolBounded] at hs ⊢
      omega
  exact hrepost.trans (.same rfl)

theorem completeEntry_keepsBounds (hmeant : unique → s.stackTagged e.entry.tag = some e)
    (h : s.completeEntry e = .ok t) : KeepsBounds unique s t := by
  unfold State.completeEntry at h
  split at h
  case h_5 hcase =>
    refine repost_keepsBounds hmeant ?_ h
    unfold StackEntry.endCase at hcase
    split at hcase
    · cases hcase
    · simp [Entry.remote, *]
  all_goals cases h
  · exact endSilently_keepsBounds
  · exact endSilently_keepsBounds
  · exact endWithDone_keepsBounds _
  · exact endWithDone_keepsBounds _

theorem discardEntry_keepsBounds (slot : Fin 32) (e : Entry) : KeepsBounds unique s (s.discardEntry slot e) := by
  unfold State.discardEntry
  split
  next => exact .same rfl
  next hfree =>
    have hcleared : KeepsBounds unique s (s.setSlot slot none) := clearSlot_keepsBounds s slot
    exact (hcleared.trans (notify_keepsBounds (s.setSlot slot none) (eq_false_of_ne_true hfree) _)).trans (.same rfl)

end

/-! ## Admission -/

/-- What the decision table has tested where a row names a pending entry, inserts one or needs a slot of the queue (R124). -/
def State.RowTested (s : State) (n : Node) : EventRow → Prop
  | .row2a slot e => s.table[slot] = some e
  | .row2b => s.hasCapacity n = true
  | .row3b => s.hasCapacity n = true
  | .row5a _ _ => s.queueFull = false
  | _ => True

section
variable (s : State) (n : Node) (line : Line)

theorem pulseRow_tested : s.RowTested n (s.pulseRow n line) := by
  unfold State.pulseRow
  split
  next slot e hpending => exact (findPending_some hpending).1
  next =>
    split
    next hcapacity => exact hcapacity
    next => trivial

theorem assertRow_tested : s.RowTested n (s.assertRow n line) := by
  unfold State.assertRow
  split
  · trivial
  · split
    next hcapacity => exact hcapacity
    next => trivial

theorem releaseRow_tested : s.RowTested n (s.releaseRow n line) := by
  unfold State.releaseRow
  split
  · split
    next => trivial
    next hfree => exact eq_false_of_ne_true hfree
  · split <;> trivial

theorem eventRow_tested (kind : EventKind) : s.RowTested n (s.eventRow n kind line) := by
  unfold State.eventRow
  dsimp only
  split
  · trivial
  · split
    · trivial
    · cases kind with
      | pulse =>
        dsimp only
        split
        · exact pulseRow_tested s n line
        · trivial
      | assert =>
        dsimp only
        split
        · exact assertRow_tested s n line
        · trivial
      | release => exact releaseRow_tested s n line

end

section
variable {unique : Prop} {s t : State} {n : Node}

theorem applyRow_keepsBounds {row : EventRow} {line : Line} {payload : List Byte} (htested : s.RowTested n row)
    (h : s.applyRow row n line payload = .ok t) : KeepsBounds unique s t := by
  cases row
  case row2b | row3b => exact insertRemote_keepsBounds htested h
  all_goals cases h
  case row2a slot e => exact rewriteSlot_keepsBounds s htested rfl
  case row5a slot e =>
    have hcleared : KeepsBounds unique s (s.setSlot slot none) := clearSlot_keepsBounds s slot
    exact hcleared.trans (append_keepsBounds (s.setSlot slot none) htested n _)
  case row5c => exact markReleased_keepsBounds s n.source line
  all_goals exact .same rfl

theorem decideEvent_keepsBounds {seq : Seq} {more : Bool} {kind : EventKind} {line : Line} {payload : List Byte}
    (h : s.decideEvent n seq more kind line payload = .ok t) : KeepsBounds unique s t := by
  obtain ⟨u, happly, h⟩ := bind_ok h
  have hu : KeepsBounds unique s u := applyRow_keepsBounds (eventRow_tested s n line kind) happly
  split at h
  · cases h
    exact hu.trans (.same rfl)
  · cases h
    split <;> exact hu.trans (.same rfl)

theorem sequenceFault_keepsBounds {atOnce : Bool} (h : s.sequenceFault n atOnce = .ok t) : KeepsBounds unique s t := by
  have hcounted : KeepsBounds unique s (s.countFault n) := countFault_keepsBounds s n
  have hlost : KeepsBounds unique s { s.countFault n with freeCount := s.freeCount + 1 } :=
    hcounted.trans (.same rfl)
  unfold State.sequenceFault at h
  dsimp only at h
  split at h
  · exact hcounted.trans (post_keepsBounds h)
  · split at h
    · exact hlost.trans (post_keepsBounds h)
    · cases h
      exact hlost.trans (raise_keepsBounds _ _)

theorem judgeEvent_keepsBounds {seq : Seq} {more : Bool} {kind : EventKind} {line : Line} {payload : List Byte}
    (h : s.judgeEvent n seq more kind line payload = .ok t) : KeepsBounds unique s t := by
  unfold State.judgeEvent at h
  dsimp only at h
  split at h
  · exact decideEvent_keepsBounds h
  · split at h
    · cases h
      exact .same rfl
    · exact sequenceFault_keepsBounds h

theorem handleReply_keepsBounds {r : ReplyRecord} (h : s.handleReply r = .ok t) : KeepsBounds unique s t := by
  unfold State.handleReply at h
  split at h
  case h_1 =>
    cases h
    exact hello_keepsBounds s _ _
  case h_4 =>
    cases h
    split <;> exact .same rfl
  case h_5 =>
    split at h
    · exact judgeEvent_keepsBounds h
    · cases h
      exact .same rfl
  all_goals
    cases h
    exact .same rfl

end

/-! ## The link and the Scheduler -/

section
variable {unique : Prop} (s : State)

theorem reportTransmission_keepsBounds (f : TxFrame) : KeepsBounds unique s (s.reportTransmission f) := by
  unfold State.reportTransmission
  cases f.kind
  case admitFrame | eject =>
    dsimp only
    split <;> exact .same rfl
  all_goals exact .same rfl

theorem slotFault_keepsBounds (n : Node) (slot : SlotKind) : KeepsBounds unique s (s.slotFault n slot) := by
  cases slot
  · exact countFault_keepsBounds s n
  · exact .same rfl

theorem badFrame_keepsBounds (n : Node) (slot : SlotKind) : KeepsBounds unique s (s.badFrame n slot) :=
  (raise_keepsBounds s _).trans (slotFault_keepsBounds _ n slot)

theorem goodReply_keepsBounds (r : ReplyRecord) : KeepsBounds unique s (s.goodReply r) := by
  unfold State.goodReply
  split <;> exact .same rfl

/-- A choice drops frames of the queue and adds none (R120). -/
theorem stepOutbound_keepsBounds : KeepsBounds unique s s.stepOutbound.state := by
  unfold State.stepOutbound
  split
  · exact .same rfl
  · split
    next f rest hhead =>
      obtain ⟨dropped, hqueue, -, -⟩ := takeHead_some hhead
      refine .of_le (.refl _) ?_ fun _ => le_rfl
      have hlength : rest.length ≤ s.queue.length := by simp [hqueue]; omega
      exact hlength
    next => exact .of_le (.refl _) (Nat.zero_le _) fun _ => le_rfl

theorem stepBurst_keepsBounds : KeepsBounds unique s s.stepBurst.state := by
  unfold State.stepBurst
  split
  · split <;> exact .same rfl
  · exact .same rfl
  · exact .same rfl

theorem pollOrProbe_keepsBounds : KeepsBounds unique s s.pollOrProbe := by
  unfold State.pollOrProbe
  split
  · exact .same rfl
  · dsimp only
    split
    · exact .same rfl
    · split <;> exact .same rfl

theorem choose_keepsBounds : KeepsBounds unique s s.choose := by
  have houtbound : KeepsBounds unique s s.stepOutbound.state := stepOutbound_keepsBounds s
  unfold State.choose
  split
  next t h => rwa [h] at houtbound
  next t h =>
    have hburst : KeepsBounds unique t t.stepBurst.state := stepBurst_keepsBounds t
    rw [h] at houtbound
    split
    next u hu =>
      rw [hu] at hburst
      exact houtbound.trans hburst
    next u hu =>
      rw [hu] at hburst
      exact (houtbound.trans hburst).trans (pollOrProbe_keepsBounds u)

end

/-! ## The claim -/

/-- An AUTO claim is decided where the DONE it owes has a free slot (R64, R67). -/
theorem claimDecision_auto_slot {s : State} {i : Fin 32} {e : Entry} (h : s.claimDecision = .auto i e) :
    (e.notice.isSome && s.queueFull) = false := by
  unfold State.claimDecision at h
  split at h
  · cases h
  · split at h
    · cases h
    · split at h
      · cases h
      · dsimp only at h
        split at h
        · split at h
          · cases h
          next hslot =>
            cases h
            exact eq_false_of_ne_true hslot
        · cases h

/-- An ordinary claim is decided where the stack has room, and takes the winner (R62, R65). -/
theorem claimDecision_ordinary_winner {s : State} {i : Fin 32} {e' : Entry} (h : s.claimDecision = .ordinary i e') :
    s.stack.length < Config.stackMax ∧ ∃ e, s.winner = some (i, e) ∧ e' = s.markAtClaim e := by
  unfold State.claimDecision at h
  split at h
  · cases h
  · split at h
    · cases h
    next hroom =>
      refine ⟨not_le.mp fun hfull => hroom (decide_eq_true hfull), ?_⟩
      split at h
      · cases h
      next hwinner =>
        dsimp only at h
        split at h
        · split at h <;> cases h
        · cases h
          exact ⟨_, hwinner, rfl⟩

section
variable {unique : Prop} {s : State}

theorem claimAuto_keepsBounds {i : Fin 32} {e : Entry} (hslot : (e.notice.isSome && s.queueFull) = false) :
    KeepsBounds unique s (s.claimAuto i e) := by
  have hcleared : KeepsBounds unique s (s.setSlot i none) := clearSlot_keepsBounds s i
  exact (hcleared.trans (notify_keepsBounds (s.setSlot i none) hslot _)).trans (.same rfl)

/-- The winner goes on top of a stack with room for it, and stays in the pool (R62, R65, R70). -/
theorem claimOrdinary_keepsBounds {i : Fin 32} {e : Entry} (hroom : s.stack.length < Config.stackMax)
    (hwinner : s.winner = some (i, e)) : KeepsBounds unique s (s.claimOrdinary i (s.markAtClaim e)) where
  stack := by
    rintro ⟨hdepth, hordered⟩
    have habove := winner_above_stack ⟨hdepth, hordered⟩ hwinner
    have hlevel : s.lineLevel (s.markAtClaim e) = s.lineLevel e := by
      rw [markAtClaim_frame]
      rfl
    refine ⟨?_, ?_⟩
    · simpa [State.claimOrdinary] using hroom
    · simpa [State.claimOrdinary, List.pairwise_append, hlevel] using ⟨hordered, habove⟩
  queue := id
  pool _ hpool := by
    have hcleared := poolCount_setSlot s i none
    rw [(winner_spec hwinner).1] at hcleared
    have hpushed : (s.claimOrdinary i (s.markAtClaim e)).poolCount =
        (s.setSlot i none).poolCount + [e].countP Entry.remote := by
      rw [markAtClaim_frame]
      simp only [State.poolCount, State.claimOrdinary, State.fillWindow_stack, State.push_stack, List.countP_append]
      exact (Nat.add_assoc ..).symm
    rw [State.PoolBounded, hpushed]
    exact hcleared.le.trans hpool

end

/-! ## The commands -/

section
variable {unique : Prop} (s : State)

theorem execClaim_keepsBounds : EveryNext (KeepsBounds unique s) (execClaim s) := by
  unfold execClaim
  split
  next => exact .next (.same rfl)
  next hauto => exact .next (claimAuto_keepsBounds (claimDecision_auto_slot hauto))
  next hordinary =>
    obtain ⟨hroom, e, hwinner, rfl⟩ := claimDecision_ordinary_winner hordinary
    exact .next (claimOrdinary_keepsBounds hroom hwinner)

theorem execStart_keepsBounds : EveryNext (KeepsBounds unique s) (execStart s) := by
  refine .taken (.same rfl) ?_
  split <;> exact .next (.same rfl)

theorem execStop_keepsBounds : EveryNext (KeepsBounds unique s) (execStop s) := by
  refine .taken (.same rfl) ?_
  split
  · split
    · exact .next (.same rfl)
    · exact .settle fun _ => endStop_keepsBounds
  · exact .next (.same rfl)

theorem execResume_keepsBounds : EveryNext (KeepsBounds unique s) (execResume s) := by
  refine .taken (.same rfl) ?_
  split <;> exact .next (.same rfl)

theorem execRestart_keepsBounds : EveryNext (KeepsBounds unique s) (execRestart s) :=
  .taken (.same rfl) (.next (beginRestart_keepsBounds s))

theorem execRestartClearStep_keepsBounds : EveryNext (KeepsBounds unique s) (execRestartClearStep s) := by
  unfold execRestartClearStep
  cases s.command with
  | restart i =>
    dsimp only
    split <;> exact .next ((clearSlot_keepsBounds s i).trans (.same rfl))
  | idle | stop | retire => exact .next (.same rfl)

theorem execComplete_keepsBounds : EveryNext (KeepsBounds unique s) (execComplete s) := by
  refine .taken (.same rfl) ?_
  split
  · exact .next (.same rfl)
  · split
    next => exact .next (.same rfl)
    next e hnamed =>
      obtain ⟨tag, -, hfound⟩ := Option.bind_eq_some_iff.mp hnamed
      obtain ⟨rfl, -⟩ := stackTagged_split hfound
      exact .settle fun _ => completeEntry_keepsBounds fun _ => hfound

theorem execCompleteTop_keepsBounds (hunique : unique → s.TagsUnique) :
    EveryNext (KeepsBounds unique s) (execCompleteTop s) := by
  refine .taken (.same rfl) ?_
  split
  · exact .next (.same rfl)
  · split
    next => exact .next (.same rfl)
    next e htop =>
      have harg : KeepsBounds unique s { s with arg0 := tagByte e.entry.tag } := .same rfl
      exact .settle fun _ h =>
        harg.trans (completeEntry_keepsBounds (fun h => stackTagged_top (hunique h) htop) h)

theorem execDiscard_keepsBounds : EveryNext (KeepsBounds unique s) (execDiscard s) := by
  refine .taken (.same rfl) ?_
  split
  · exact .next (.same rfl)
  · split
    · exact .next (.same rfl)
    · split
      · exact .next (.same rfl)
      · split
        · exact .next (.same rfl)
        · exact .next (discardEntry_keepsBounds _ _)

theorem execGetEntry_keepsBounds : EveryNext (KeepsBounds unique s) (execGetEntry s) := by
  refine .taken (.same rfl) ?_
  split
  · exact .next (.same rfl)
  · split
    · exact .next (.same rfl)
    · split <;> exact .next (.same rfl)

theorem execSetLine_keepsBounds : EveryNext (KeepsBounds unique s) (execSetLine s) := by
  refine .taken (.same rfl) ?_
  split
  · exact .next (.same rfl)
  · dsimp only
    split <;> exact .next (.same rfl)

theorem execGetLine_keepsBounds : EveryNext (KeepsBounds unique s) (execGetLine s) := by
  refine .taken (.same rfl) ?_
  split <;> exact .next (.same rfl)

theorem execSetNode_keepsBounds : EveryNext (KeepsBounds unique s) (execSetNode s) := by
  refine .taken (.same rfl) ?_
  split
  · exact .next (.same rfl)
  · split <;> exact .next (.same rfl)

theorem execGetNode_keepsBounds : EveryNext (KeepsBounds unique s) (execGetNode s) := by
  refine .taken (.same rfl) ?_
  split <;> exact .next (.same rfl)

theorem execSetLink_keepsBounds : EveryNext (KeepsBounds unique s) (execSetLink s) := by
  refine .taken (.same rfl) ?_
  split
  · split <;> exact .next (.same rfl)
  · exact .next (.same rfl)

theorem execRetire_keepsBounds : EveryNext (KeepsBounds unique s) (execRetire s) := by
  refine .taken (.same rfl) ?_
  split
  · exact .next (.same rfl)
  · split
    · exact .next (.same rfl)
    · split
      · exact .next (.same rfl)
      · split
        next => exact .next (.same rfl)
        next hfree => exact .next (beginRetire_keepsBounds s (eq_false_of_ne_true hfree) _)

/-- A purge step empties its slot or leaves it (R39). -/
theorem purgeSlot_keepsBounds (n : Node) (i : Fin 32) : KeepsBounds unique s (s.purgeSlot n i) := by
  refine setSlot_keepsBounds s i _ fun e he hremote => ?_
  exact ⟨e, (Option.filter_eq_some_iff.mp he).1, hremote⟩

theorem execRetireWalkStep_keepsBounds : EveryNext (KeepsBounds unique s) (execRetireWalkStep s) := by
  unfold execRetireWalkStep
  cases s.command with
  | retire n i =>
    have hpurged : KeepsBounds unique s (s.purgeSlot n i) := purgeSlot_keepsBounds s n i
    dsimp only
    split
    · exact .next (hpurged.trans (.same rfl))
    · exact .settle fun _ h => hpurged.trans (endRetire_keepsBounds h)
  | idle | stop | restart => exact .next (.same rfl)

theorem execPinReset_keepsBounds (periods : Nat) : EveryNext (KeepsBounds unique s) (execPinReset periods s) := by
  have hcounted : KeepsBounds unique s { s with freeCount := s.freeCount + 1 } := .same rfl
  unfold execPinReset
  split
  · exact .next (pinReset_keepsBounds s)
  · dsimp only
    split
    · exact .next (hcounted.trans (pinReset_keepsBounds _))
    · exact .next hcounted

theorem execSchedulerChoice_keepsBounds : EveryNext (KeepsBounds unique s) (execSchedulerChoice s) := by
  unfold execSchedulerChoice
  split
  · exact .next (choose_keepsBounds s)
  · exact .next (.same rfl)

theorem execFrameTransmitted_keepsBounds : EveryNext (KeepsBounds unique s) (execFrameTransmitted s) := by
  unfold execFrameTransmitted
  split
  · exact .next ((reportTransmission_keepsBounds s _).trans (.same rfl))
  · exact .next (.same rfl)

theorem execReplyWaitExpiry_keepsBounds : EveryNext (KeepsBounds unique s) (execReplyWaitExpiry s) := by
  unfold execReplyWaitExpiry
  split
  · exact .next ((slotFault_keepsBounds s _ _).trans (.same rfl))
  · exact .next (.same rfl)

theorem execStartBit_keepsBounds (k : Nat) : EveryNext (KeepsBounds unique s) (execStartBit k s) := by
  unfold execStartBit
  split <;> exact .next (.same rfl)

theorem execReplyReceived_keepsBounds (ldi : List Bool) :
    EveryNext (KeepsBounds unique s) (execReplyReceived ldi s) := by
  unfold execReplyReceived
  split
  next bytes _ _ _ _ =>
    have hassembled : KeepsBounds unique s (s.assemble bytes) := .same rfl
    dsimp only
    split
    · exact .next ((hassembled.trans (goodReply_keepsBounds _ _)).trans (.same rfl))
    · exact .next ((hassembled.trans (badFrame_keepsBounds _ _ _)).trans (.same rfl))
  next => exact .next (.same rfl)

theorem execFramingError_keepsBounds (ldi : List Bool) :
    EveryNext (KeepsBounds unique s) (execFramingError ldi s) := by
  unfold execFramingError
  split <;> exact .next (.same rfl)

theorem execDrainEnd_keepsBounds : EveryNext (KeepsBounds unique s) (execDrainEnd s) := by
  unfold execDrainEnd
  split
  · exact .next ((badFrame_keepsBounds s _ _).trans (.same rfl))
  · exact .next (.same rfl)

theorem execGuardEnd_keepsBounds : EveryNext (KeepsBounds unique s) (execGuardEnd s) := by
  have hended : KeepsBounds unique s { s.enterLink .idle 0 with txBuffer := none } := .same rfl
  unfold execGuardEnd
  split
  · dsimp only
    split
    · exact .settle fun _ h => hended.trans (endStop_keepsBounds h)
    · exact .next hended
  · exact .next (.same rfl)

theorem execAdmissionTake_keepsBounds : EveryNext (KeepsBounds unique s) (execAdmissionTake s) := by
  have htaken : KeepsBounds unique s { s with holding := none } := .same rfl
  unfold execAdmissionTake
  split
  · exact .next (.same rfl)
  · split
    · exact .next (.same rfl)
    · exact .settle fun _ h => htaken.trans (handleReply_keepsBounds h)

theorem execLocalPosting_keepsBounds (c : LocalCondition) :
    EveryNext (KeepsBounds unique s) (execLocalPosting c s) := by
  have htaken : KeepsBounds unique s { s with raised := s.raised.erase c } := .same rfl
  unfold execLocalPosting
  split
  · exact .settle fun _ h => htaken.trans (post_keepsBounds h)
  · exact .next (.same rfl)

section
variable (hunique : unique → s.TagsUnique)
include hunique

theorem run_keepsBounds (c : CmdCode) : EveryNext (KeepsBounds unique s) (c.run s) := by
  cases c with
  | start => exact execStart_keepsBounds s
  | stop => exact execStop_keepsBounds s
  | resume => exact execResume_keepsBounds s
  | restart => exact execRestart_keepsBounds s
  | complete => exact execComplete_keepsBounds s
  | completeTop => exact execCompleteTop_keepsBounds s hunique
  | discard => exact execDiscard_keepsBounds s
  | getEntry => exact execGetEntry_keepsBounds s
  | setLine => exact execSetLine_keepsBounds s
  | getLine => exact execGetLine_keepsBounds s
  | setNode => exact execSetNode_keepsBounds s
  | getNode => exact execGetNode_keepsBounds s
  | retire => exact execRetire_keepsBounds s
  | setLink => exact execSetLink_keepsBounds s

theorem execBadCmd_keepsBounds (code : Byte) : EveryNext (KeepsBounds unique s) (execBadCmd code s) := by
  unfold execBadCmd
  split
  · exact .taken (.same rfl) (.next (.same rfl))
  · exact run_keepsBounds s hunique _

theorem execRegisterWrite_keepsBounds (addr : BitVec 4) (value : Byte) :
    EveryNext (KeepsBounds unique s) (execRegisterWrite addr value s) := by
  unfold execRegisterWrite
  cases Reg.ofAddr addr with
  | arg i =>
    refine .taken (.same rfl) (.next ?_)
    unfold State.setArg
    split <;> exact .same rfl
  | cmdRes => exact execBadCmd_keepsBounds s hunique value
  | lven reg => cases reg <;> exact .next (.same rfl)
  | floor | stat | claim | cwSrc | cwLvl | cwFlg | cwPl0 | cwPl1 | top => exact .next (.same rfl)

/-- Every command, well-formed or not, keeps the three laws. -/
theorem exec_keepsBounds (c : Instr) : EveryNext (KeepsBounds unique s) (exec c s) := by
  cases c with
  | statRead => exact .next (.same rfl)
  | floorWrite value => exact .next (.same rfl)
  | lvenWrite reg value => cases reg <;> exact .next (.same rfl)
  | claim => exact execClaim_keepsBounds s
  | registerWrite addr value => exact execRegisterWrite_keepsBounds s hunique addr value
  | badCmd code => exact execBadCmd_keepsBounds s hunique code
  | start => exact execStart_keepsBounds s
  | stop => exact execStop_keepsBounds s
  | resume => exact execResume_keepsBounds s
  | restart => exact execRestart_keepsBounds s
  | restartClearStep => exact execRestartClearStep_keepsBounds s
  | complete => exact execComplete_keepsBounds s
  | completeTop => exact execCompleteTop_keepsBounds s hunique
  | discard => exact execDiscard_keepsBounds s
  | getEntry => exact execGetEntry_keepsBounds s
  | setLine => exact execSetLine_keepsBounds s
  | getLine => exact execGetLine_keepsBounds s
  | setNode => exact execSetNode_keepsBounds s
  | getNode => exact execGetNode_keepsBounds s
  | setLink => exact execSetLink_keepsBounds s
  | retire => exact execRetire_keepsBounds s
  | retireWalkStep => exact execRetireWalkStep_keepsBounds s
  | pinReset periods => exact execPinReset_keepsBounds s periods
  | schedulerChoice => exact execSchedulerChoice_keepsBounds s
  | frameTransmitted => exact execFrameTransmitted_keepsBounds s
  | replyWaitExpiry => exact execReplyWaitExpiry_keepsBounds s
  | replyReceived ldi => exact execReplyReceived_keepsBounds s ldi
  | drainEnd => exact execDrainEnd_keepsBounds s
  | guardEnd => exact execGuardEnd_keepsBounds s
  | admissionTake => exact execAdmissionTake_keepsBounds s
  | localPosting c => exact execLocalPosting_keepsBounds s c
  | startBit k => exact execStartBit_keepsBounds s k
  | framingError ldi => exact execFramingError_keepsBounds s ldi

end

end

/-- A step takes the front command off the queue of commands and runs it, or idles. -/
theorem step_keepsBounds (s : State) : EveryNext (KeepsBounds s.TagsUnique s) (step s) := by
  unfold step
  split
  next => exact .next (.same rfl)
  next c rest _ =>
    have htaken : KeepsBounds s.TagsUnique s { s with pending := rest } := .same rfl
    exact fun t h => htaken.trans (exec_keepsBounds { s with pending := rest } (fun htags => htags) c t h)

/-- Settles O6: every operation keeps the three bounds, and COMPLETE_TOP's removal by tag is the one place that needs
tags to be unique. -/
theorem stepKeepsStackQueueAndPoolBounds : Obligations.StepKeepsStackQueueAndPoolBounds := by
  intro s t hstep
  obtain ⟨hstack, hqueue, hpool⟩ := step_keepsBounds s t hstep
  exact ⟨hstack, hqueue, hpool⟩

end Sys2Proof.Machine
end

section
/-! SUPPORT. Completions (R81 to R84, R86, R87): the tag a byte names, the entry a command names, and how an entry that does
not repost ends, with the frame of each end; and the statements O23 and O25. -/

namespace Sys2Proof.Machine

/-! ## Tags and their bytes -/

theorem tagOfByte_tagByte {t : Tag} (h : t ≠ 0) : tagOfByte (tagByte t) = some t := by
  have hval : (tagByte t).toNat = t.val := by
    rw [tagByte, BitVec.toNat_ofNat]
    omega
  have hpos : t.val ≠ 0 := Fin.val_ne_zero_iff.mpr h
  simp [tagOfByte, hval, hpos]

/-- A byte that names a tag is the byte of that tag, and is not 0. -/
theorem tagOfByte_some {b : Byte} {t : Tag} (h : tagOfByte b = some t) : tagByte t = b ∧ b ≠ 0x00#8 := by
  unfold tagOfByte at h
  split at h
  · split at h
    · cases h
    next hpos =>
      cases h
      refine ⟨by simp [tagByte], ?_⟩
      rintro rfl
      exact hpos rfl
  · cases h

/-! ## Uniqueness of tags on the stack -/

section
variable {s : State} {below above : List StackEntry} {e : StackEntry}

theorem stack_tag_ne_zero (htags : s.TagsUnique) (he : e ∈ s.stack) : e.entry.tag ≠ 0 := by
  obtain ⟨-, hzero, -⟩ := htags
  intro h
  exact hzero (h ▸ List.mem_append_right _ (List.mem_map_of_mem he))

/-- No entry under `e` holds its tag (R23). -/
theorem below_tag_ne (htags : s.TagsUnique) (hstack : s.stack = below ++ e :: above) :
    ∀ x ∈ below, x.entry.tag ≠ e.entry.tag := by
  have hnodup : (s.stack.map (·.entry.tag)).Nodup := htags.1.of_append_right
  rw [hstack, List.map_append, List.nodup_append] at hnodup
  obtain ⟨-, -, hdisjoint⟩ := hnodup
  exact fun x hx => hdisjoint _ (List.mem_map_of_mem hx) _ (by simp)

/-! ## The entry that a command names -/

theorem execComplete_config (hidle : s.command = .idle) (hmode : s.mode = .config) :
    execComplete s = .next (s.withRes .badMode) := by
  simp only [execComplete, taken_idle hidle, if_pos hmode]

theorem execCompleteTop_config (hidle : s.command = .idle) (hmode : s.mode = .config) :
    execCompleteTop s = .next (s.withRes .badMode) := by
  simp only [execCompleteTop, taken_idle hidle, if_pos hmode]

section
variable (hidle : s.command = .idle) (hmode : s.mode ≠ .config)
include hidle hmode

theorem execComplete_unnamed (h : (tagOfByte s.arg0).bind s.stackTagged = none) :
    execComplete s = .next (s.withRes .noTag) := by
  simp only [execComplete, taken_idle hidle, if_neg hmode, h]

theorem execCompleteTop_empty (h : s.stack = []) : execCompleteTop s = .next (s.withRes .noTag) := by
  have htop : s.topEntry = none := List.getLast?_eq_none_iff.mpr h
  simp only [execCompleteTop, taken_idle hidle, if_neg hmode, htop]

theorem execComplete_named (htags : s.TagsUnique) (hstack : s.stack = below ++ e :: above)
    (harg : s.arg0 = tagByte e.entry.tag) : execComplete s = settle (s.completeEntry e) := by
  have hmem : e ∈ s.stack := by simp [hstack]
  have hnamed : (tagOfByte s.arg0).bind s.stackTagged = some e := by
    rw [harg, tagOfByte_tagByte (stack_tag_ne_zero htags hmem), Option.bind_some]
    exact stackTagged_middle s below above e hstack (below_tag_ne htags hstack)
  simp only [execComplete, taken_idle hidle, if_neg hmode, hnamed]

theorem execCompleteTop_top (hstack : s.stack = below ++ [e]) :
    execCompleteTop s = settle (State.completeEntry { s with arg0 := tagByte e.entry.tag } e) := by
  have htop : s.topEntry = some e := by simp [State.topEntry, hstack]
  simp only [execCompleteTop, taken_idle hidle, if_neg hmode, htop]

end

/-- A byte that is 0, or is the tag byte of no stack entry, leads to no stack entry. -/
theorem stackTagged_of_byte_none
    (h : s.arg0 = 0x00#8 ∨ ∀ e ∈ s.stack, tagByte e.entry.tag ≠ s.arg0) :
    (tagOfByte s.arg0).bind s.stackTagged = none := by
  rw [Option.eq_none_iff_forall_ne_some]
  intro e hnamed
  obtain ⟨t, htag, hfound⟩ := Option.bind_eq_some_iff.mp hnamed
  obtain ⟨hbyte, hpos⟩ := tagOfByte_some htag
  obtain ⟨rfl, below, above, hstack, -⟩ := stackTagged_split hfound
  rcases h with hzero | hnone
  · exact hpos hzero
  · exact hnone e (by simp [hstack]) hbyte

/-! ## The ends of an entry -/

/-- Cases L and S of R82. -/
theorem completeEntry_silent (h : e.entry.source = 15 ∨ e.entry.stale = true) :
    s.completeEntry e = .ok (s.endSilently e) := by
  cases hnode : nodeOf e.entry.source with
  | none => simp only [State.completeEntry, StackEntry.endCase, hnode]
  | some n =>
    have hstale : e.entry.stale = true := h.resolve_left fun hlocal => by
      rw [hlocal, nodeOf_local] at hnode
      cases hnode
    simp only [State.completeEntry, StackEntry.endCase, hnode, if_pos hstale]

/-- Cases E and R of R82. -/
theorem completeEntry_notified {n : Node} (hsource : e.entry.source = n.castSucc) (hfresh : e.entry.stale = false)
    (h : e.entry.kind = .edge ∨ e.released = true) : s.completeEntry e = .ok (s.endWithDone e n) := by
  have hnode : nodeOf e.entry.source = some n := nodeOf_eq_some_iff.mpr hsource
  by_cases hedge : e.entry.kind = .edge
  · simp only [State.completeEntry, StackEntry.endCase, hnode, hfresh, hedge, Bool.false_eq_true, if_false, if_true]
  · have hreleased : e.released = true := h.resolve_left hedge
    simp only [State.completeEntry, StackEntry.endCase, hnode, hfresh, hreleased, Bool.false_eq_true, if_false,
      if_neg hedge, if_true]

theorem settle_notified_full {n : Node} (hsource : e.entry.source = n.castSucc) (hfresh : e.entry.stale = false)
    (h : e.entry.kind = .edge ∨ e.released = true) (hfull : 16 ≤ s.queue.length) :
    settle (s.completeEntry e) = .next { s with res := .queueFull } := by
  have hnone : s.queueFull = true := decide_eq_true hfull
  rw [completeEntry_notified hsource hfresh h, State.endWithDone, if_pos hnone]
  rfl

section
variable {rest : List StackEntry} (hstack : s.stack = below ++ e :: above)
  (hbelow : ∀ x ∈ below, x.entry.tag ≠ e.entry.tag) (hrest : below ++ above = rest)
include hstack hbelow hrest

theorem removeStacked_eq : s.removeStacked e.entry.tag = { s with stack := rest } :=
  congrArg (fun stack => { s with stack := stack }) ((removeStacked_middle s below above e hstack hbelow).trans hrest)

theorem settle_silent (h : e.entry.source = 15 ∨ e.entry.stale = true) :
    settle (s.completeEntry e) = .next { s with stack := rest, arg1 := 0x00#8, res := .ok } := by
  rw [completeEntry_silent h, State.endSilently, removeStacked_eq hstack hbelow hrest]
  rfl

theorem settle_notified_room {n : Node} (hsource : e.entry.source = n.castSucc) (hfresh : e.entry.stale = false)
    (h : e.entry.kind = .edge ∨ e.released = true) (hroom : s.queue.length < 16) :
    settle (s.completeEntry e) = .next { s with
      stack := rest, queue := s.queue ++ [⟨n, .done e.entry.line .serviced⟩], arg1 := 0x00#8, res := .ok } := by
  have hfree : ¬ s.queueFull = true := fun h => Nat.not_le.mpr hroom (of_decide_eq_true h)
  rw [completeEntry_notified hsource hfresh h, State.endWithDone, if_neg hfree, removeStacked_eq hstack hbelow hrest]
  rfl

end

end

/-! ## The statements -/

/-- Settles O25: what the refused byte or the empty stack names, and the mode test before it. -/
theorem completionRefusals : Obligations.CompletionRefusals := by
  intro s hidle
  refine ⟨fun hmode => ?_, fun hmode hunnamed => ?_, execCompleteTop_empty hidle⟩
  · exact ⟨execComplete_config hidle hmode, execCompleteTop_config hidle hmode⟩
  · exact execComplete_unnamed hidle hmode (stackTagged_of_byte_none hunnamed)

/-- Settles O23: both commands come to the completion of the entry, COMPLETE because its tag is unique and COMPLETE_TOP in the
state with the tag in ARG0; the entry's case then says how it ends. -/
theorem completionEndsAnEntry : Obligations.CompletionEndsAnEntry := by
  rintro s below above e tag hidle hmode htags hstack rfl
  have hbelow := below_tag_ne htags hstack
  have hcomplete : s.arg0 = tagByte e.entry.tag → exec .complete s = settle (s.completeEntry e) :=
    execComplete_named hidle hmode htags hstack
  have htop (habove : above = []) :
      exec .completeTop s = settle (State.completeEntry { s with arg0 := tagByte e.entry.tag } e) :=
    execCompleteTop_top hidle hmode (habove ▸ hstack)
  have hlast (habove : above = []) : below ++ above = below := by rw [habove, List.append_nil]
  refine ⟨fun hsilent => ⟨fun harg => ?_, fun habove => ?_⟩, fun n hsource hfresh hcase =>
    ⟨fun hroom => ⟨fun harg => ?_, fun habove => ?_⟩, fun hfull => ⟨fun harg => ?_, fun habove => ?_⟩⟩⟩
  · exact (hcomplete harg).trans (settle_silent hstack hbelow rfl hsilent)
  · exact (htop habove).trans (settle_silent hstack hbelow (hlast habove) hsilent)
  · exact (hcomplete harg).trans (settle_notified_room hstack hbelow rfl hsource hfresh hcase hroom)
  · exact (htop habove).trans (settle_notified_room (s := { s with arg0 := tagByte e.entry.tag }) hstack hbelow
      (hlast habove) hsource hfresh hcase hroom)
  · exact (hcomplete harg).trans (settle_notified_full hsource hfresh hcase hfull)
  · exact (htop habove).trans (settle_notified_full hsource hfresh hcase hfull)

end Sys2Proof.Machine
end

section
/-! SUPPORT. The check byte (R98): the advance of the check register loses no bit, so neither does a run of bytes, and two seeds
are told apart by any reply; and the statement O47. -/

namespace Sys2Proof.Machine

/-! ## The check register -/

theorem crcAdvance_eq (r : Byte) : crcAdvance r = (if r.getLsbD 7 then 0x07#8 else 0x00#8) ^^^ (r <<< 1) := by
  unfold crcAdvance
  rw [BitVec.msb_eq_getLsbD_last]
  split
  · exact BitVec.xor_comm _ _
  · exact BitVec.zero_xor.symm

/-- 07h has bit 0 set, so the bit that an advance drops at the top comes back at the bottom. -/
theorem crcAdvance_getLsbD_zero (r : Byte) : (crcAdvance r).getLsbD 0 = r.getLsbD 7 := by
  rw [crcAdvance_eq]
  cases r.getLsbD 7 <;> simp

theorem crcAdvance_injective : Function.Injective crcAdvance := by
  intro x y h
  have hdropped : x.getLsbD 7 = y.getLsbD 7 := by
    rw [← crcAdvance_getLsbD_zero, h, crcAdvance_getLsbD_zero]
  have hshifted : x <<< 1 = y <<< 1 := by
    rw [crcAdvance_eq, crcAdvance_eq, hdropped] at h
    exact (BitVec.xor_right_inj _).mp h
  apply BitVec.eq_of_getLsbD_eq
  intro i hi
  by_cases htop : i = 7
  · exact htop ▸ hdropped
  · have hbit := congrArg (·.getLsbD (i + 1)) hshifted
    simpa [BitVec.getLsbD_shiftLeft, show i + 1 < 8 by omega, -BitVec.getLsbD_eq_getElem] using hbit

theorem crcByte_injective (b : Byte) : Function.Injective (crcByte · b) :=
  (crcAdvance_injective.iterate 8).comp fun _ _ h => (BitVec.xor_left_inj _).mp h

/-! ## A run of bytes -/

theorem crc8_concat (seed b : Byte) (bytes : List Byte) :
    crc8 seed (bytes ++ [b]) = crcAdvance^[8] (crc8 seed bytes ^^^ b) :=
  List.foldl_concat ..

/-- Two seeds never give one check byte for the same bytes (R98). -/
theorem crc8_injective (bytes : List Byte) : Function.Injective (crc8 · bytes) := by
  induction bytes with
  | nil => exact Function.injective_id
  | cons b bytes ih => exact ih.comp (crcByte_injective b)

/-! ## Frames and replies -/

theorem leadByte_eq (n : Node) (kind : FrameKind) : leadByte n kind = BitVec.ofNat 8 (16 * kind.code + n.val) := by
  simp [leadByte, packed, field, Nat.mul_comm]

theorem replySeed_injective : Function.Injective replySeed := by
  intro n m h
  have hval := congrArg BitVec.toNat h
  simp only [replySeed, BitVec.toNat_ofNat] at hval
  ext
  omega

theorem checkPasses_iff {n : Node} {bytes : List Byte} :
    checkPasses n bytes = true ↔ bytes.getLast? = some (crc8 (replySeed n) bytes.dropLast) :=
  beq_iff_eq

theorem checkPasses_concat (n : Node) (bytes : List Byte) (c : Byte) :
    checkPasses n (bytes ++ [c]) = true ↔ c = crc8 (replySeed n) bytes := by
  simp [checkPasses_iff]

/-- A reply passes in the window of one node at most (R98). -/
theorem checkPasses_one_node {n m : Node} {bytes : List Byte} (hn : checkPasses n bytes = true)
    (hm : checkPasses m bytes = true) : n = m := by
  rw [checkPasses_iff] at hn hm
  exact replySeed_injective (crc8_injective _ (Option.some.inj (hn.symm.trans hm)))

/-- Settles O47: the separation of seeds is `crc8_injective`, and the examples of the rule are evaluated. -/
theorem checkByteFollowsTheRule : Obligations.CheckByteFollowsTheRule := by
  refine ⟨crcAdvance_eq, fun _ => rfl, fun seed b bytes => crc8_concat seed b bytes,
    fun bytes _ _ hseed h => hseed (crc8_injective bytes h), fun n kind arg => ?_, checkPasses_concat,
    fun n m bytes hne hn => ?_, by decide⟩
  · rw [← leadByte_eq]
    rfl
  · exact Bool.eq_false_iff.mpr fun hm => hne (checkPasses_one_node hn hm)

end Sys2Proof.Machine
end

section
/-! SUPPORT. Bits on the wire (R97, R99): the place of each bit of a run of bytes, the argument bytes of the downstream frames,
and the levels of LCK and LDO; and the statement O48. -/

namespace Sys2Proof.Machine

/-! ## Runs of bytes -/

@[simp] theorem wireBits_length (bytes : List Byte) : (wireBits bytes).length = 8 * bytes.length := by
  induction bytes with
  | nil => rfl
  | cons b bytes ih =>
    simp only [wireBits_cons, List.length_append, byteBits_length, ih, List.length_cons]
    omega

/-- Bit `j` of byte `i` is sent in place `8 i + j` (R97). -/
theorem wireBits_getElem? {bytes : List Byte} {i j : Nat} {b : Byte} (hbyte : bytes[i]? = some b) (hj : j < 8) :
    (wireBits bytes)[8 * i + j]? = some (b.getLsbD j) := by
  obtain ⟨hi, rfl⟩ := List.getElem?_eq_some_iff.mp hbyte
  have hplace : 8 * i + j < (wireBits bytes).length := by
    rw [wireBits_length]
    omega
  rw [List.getElem?_eq_getElem hplace, ← List.getD_eq_getElem _ true hplace, ← sample_getLsbD _ _ _ hj, sample_wireBits,
    List.getD_eq_getElem _ _ hi]

/-! ## Downstream frames -/

theorem build_bytes (n : Node) (kind : FrameKind) (arg : Byte) :
    (TxFrame.build n kind arg).bytes =
      [BitVec.ofNat 8 (16 * kind.code + n.val), arg, (TxFrame.build n kind arg).check] := by
  rw [← leadByte_eq]
  rfl

theorem doneArg_toNat (line : Line) (outcome : DoneOutcome) :
    (OutBody.done line outcome).arg.toNat = 8 * outcome.code + line.val := by
  have hcode : outcome.code ≤ 2 := by cases outcome <;> decide
  simp only [OutBody.arg, packed, field, BitVec.toNat_ofNat]
  omega

theorem admitArg_toNat (limit : Credit) : (OutBody.admitFrame limit).arg.toNat = limit.val := by
  simp only [OutBody.arg, packed, field, BitVec.toNat_ofNat]
  omega

theorem wire_length (f : TxFrame) : f.wire.length = 25 := by
  simp [TxFrame.wire, TxFrame.bytes]

/-- Bit `j` of byte `i` of a frame follows the start bit and the bytes before it. -/
theorem wire_getElem? {f : TxFrame} {i j : Nat} {b : Byte} (hbyte : f.bytes[i]? = some b) (hj : j < 8) :
    f.wire[1 + 8 * i + j]? = some (b.getLsbD j) := by
  rw [show 1 + 8 * i + j = 8 * i + j + 1 by omega, TxFrame.wire, List.getElem?_cons_succ]
  exact wireBits_getElem? hbyte hj

/-! ## The link pins -/

theorem lckRunning_iff {s : State} : s.lckRunning = true ↔ s.link ∈ [LinkState.send, .wait, .read, .drain] := by
  cases h : s.link <;> simp [State.lckRunning, h]

theorem lck_stopped {s : State} (h : s.lckRunning = false) (i : Nat) : s.lck true i = false := by
  simp [State.lck, h]

/-- In every bit time of the slot LCK goes by the place `i` of the REFCLK period in it (R96). -/
theorem lck_running {s : State} (h : s.lckRunning = true) (period : Nat) {i : Nat} (hi : i < s.bitPeriods) :
    s.lck true (period * s.bitPeriods + i) = decide (s.slotDiv + 1 ≤ i) := by
  have hplace : (period * s.bitPeriods + i) % s.bitPeriods = i := by
    rw [Nat.mul_add_mod_self_right, Nat.mod_eq_of_lt hi]
  simp [State.lck, h, hplace]

theorem ldo_idle {s : State} (h : s.link ≠ .send) (i : Nat) : s.ldo true i = true := by
  cases hlink : s.link with
  | send => exact absurd hlink h
  | idle | wait | read | drain | guard => simp [State.ldo, hlink]

theorem ldo_send {s : State} {f : TxFrame} (hlink : s.link = .send) (hframe : s.txBuffer = some f) (i : Nat) :
    s.ldo true i = f.wire.getD i true := by
  simp only [State.ldo, hlink, hframe]

/-- Settles O48: the layouts, the places on the wire and the levels of the pins, each by its lemma. -/
theorem downstreamFramesCarryTheirFields : Obligations.DownstreamFramesCarryTheirFields := by
  intro n arg
  refine ⟨?_, fun line => ⟨?_, doneArg_toNat line .discarded, doneArg_toNat line .withdrawn⟩, admitArg_toNat, rfl,
    fun f => ⟨wire_length f, rfl, fun i j b => wire_getElem?, fun bytes i j b => wireBits_getElem?, fun s i => ?_⟩⟩
  · intro kind k hcode
    have hk : kind.code = k := by
      cases kind <;> simpa [FrameKind.code, eq_comm] using hcode
    exact ⟨_, hk ▸ build_bytes n kind arg⟩
  · exact (doneArg_toNat line .serviced).trans (Nat.zero_add _)
  · refine ⟨rfl, rfl, rfl, fun hrun period => ⟨fun hlow => ?_, fun hhigh hend => ?_⟩, fun hstop => ?_,
      fun hlink => ldo_idle hlink i, fun hlink hframe b hbit => ?_⟩
    · have hi : i < s.bitPeriods := by
        rw [State.bitPeriods]
        omega
      exact (lck_running (lckRunning_iff.mpr hrun) period hi).trans (decide_eq_false (not_le.mpr hlow))
    · exact (lck_running (lckRunning_iff.mpr hrun) period hend).trans (decide_eq_true hhigh)
    · refine lck_stopped (Bool.eq_false_iff.mpr fun hrun => ?_) i
      have := lckRunning_iff.mp hrun
      rcases hstop with h | h <;> simp [h] at this
    · rw [ldo_send hlink hframe, List.getD_eq_getElem?_getD, hbit, Option.getD_some]

end Sys2Proof.Machine
end

section
/-! SUPPORT. How a reply is read (R97, R99, R104, R105): the reading goes by the bytes assembled from the samples, which are the
bytes sent, and has one rule for each type of reply and each framing error; and the statement O49. -/

namespace Sys2Proof.Machine

/-! ## The bytes assembled -/

theorem bits_eq (b : Byte) (lo width : Nat) : bits b lo width = b.toNat / 2 ^ lo % 2 ^ width := rfl

/-- A byte complete already is not changed by the samples after it. -/
theorem sample_append {ldi : List Bool} {i : Nat} (h : 8 * i + 8 ≤ ldi.length) (more : List Bool) :
    sample (ldi ++ more) i = sample ldi i := by
  apply BitVec.eq_of_getLsbD_eq
  intro j hj
  rw [sample_getLsbD _ _ _ hj, sample_getLsbD _ _ _ hj, List.getD_append _ _ _ _ (by omega)]

/-- A line that no node drives is high, as if the samples had ended before (R104). -/
theorem sample_append_high (ldi : List Bool) (k i : Nat) : sample (ldi ++ List.replicate k true) i = sample ldi i := by
  apply BitVec.eq_of_getLsbD_eq
  intro j hj
  rw [sample_getLsbD _ _ _ hj, sample_getLsbD _ _ _ hj]
  by_cases hend : 8 * i + j < ldi.length
  · exact List.getD_append _ _ _ _ hend
  · have hhigh (m : Nat) : (List.replicate k true).getD m true = true := by
      rw [List.getD_eq_getElem?_getD, List.getElem?_replicate]
      split <;> rfl
    rw [List.getD_append_right _ _ _ _ (not_lt.mp hend), hhigh, List.getD_eq_default _ _ (not_lt.mp hend)]

theorem sample_wireBits_append {bytes : List Byte} {i : Nat} (h : i < bytes.length) (more : List Bool) :
    sample (wireBits bytes ++ more) i = bytes[i] := by
  rw [sample_append (by rw [wireBits_length]; omega), sample_wireBits, List.getD_eq_getElem _ _ h]

theorem sample_first (b : Byte) (bytes : List Byte) (more : List Bool) :
    sample (wireBits (b :: bytes) ++ more) 0 = b :=
  sample_wireBits_append (by simp) more

theorem sample_second (b c : Byte) (bytes : List Byte) (more : List Bool) :
    sample (wireBits (b :: c :: bytes) ++ more) 1 = c :=
  sample_wireBits_append (by simp) more

theorem samples_wireBits_append {bytes : List Byte} {k : Nat} (h : k ≤ bytes.length) (more : List Bool) :
    samples (wireBits bytes ++ more) k = bytes.take k := by
  apply List.ext_getElem
  · simp [samples, h]
  · intro i hi _
    have hik : i < k := by simpa [samples] using hi
    simp [samples, sample_wireBits_append (hik.trans_le h)]

/-- All the bytes sent are assembled, whatever is sampled after them. -/
theorem samples_wireBits_all {bytes : List Byte} {k : Nat} (h : k = bytes.length) (more : List Bool) :
    samples (wireBits bytes ++ more) k = bytes := by
  rw [samples_wireBits_append h.le, h, List.take_length]

/-! ## The reading -/

/-- The reading sees the samples through the bytes they make only. -/
theorem readReply_congr {ldi ldi' : List Bool} (h : sample ldi = sample ldi') : readReply ldi = readReply ldi' := by
  simp only [readReply, samples, h]

section
variable {ldi : List Bool}

theorem readReply_idle (htype : (sample ldi 0).toNat % 4 = 0) : readReply ldi = .complete (samples ldi 2) .idle := by
  simp [readReply, bits_eq, htype]

theorem readReply_hello (htype : (sample ldi 0).toNat % 4 = 2) :
    readReply ldi = .complete (samples ldi 3) (.hello (Fin.ofNat 9 ((sample ldi 1).toNat % 8 + 1))) := by
  simp [readReply, bits_eq, htype]

theorem readReply_badType (htype : (sample ldi 0).toNat % 4 = 3) : readReply ldi = .framing (samples ldi 1) := by
  simp [readReply, bits_eq, htype]

section
variable (htype : (sample ldi 0).toNat % 4 = 1)
include htype

theorem readReply_badLength (hlen : (sample ldi 0).toNat / 32 % 4 = 3) : readReply ldi = .framing (samples ldi 1) := by
  simp [readReply, bits_eq, htype, hlen]

theorem readReply_badKind (hlen : (sample ldi 0).toNat / 32 % 4 ≠ 3) (hkind : (sample ldi 1).toNat % 4 = 3) :
    readReply ldi = .framing (samples ldi 2) := by
  simp [readReply, bits_eq, htype, hlen, hkind, eventKindOf]

theorem readReply_event (hlen : (sample ldi 0).toNat / 32 % 4 ≠ 3) {kind : EventKind}
    (hkind : eventKindOf ((sample ldi 1).toNat % 4) = some kind) :
    readReply ldi = .complete (samples ldi ((sample ldi 0).toNat / 32 % 4 + 3))
      (.event (Fin.ofNat 8 ((sample ldi 0).toNat / 4 % 8)) ((sample ldi 0).getLsbD 7) kind
        (Fin.ofNat 8 ((sample ldi 1).toNat / 4 % 8)) ((samples ldi ((sample ldi 0).toNat / 32 % 4 + 2)).drop 2)) := by
  simp [readReply, bits_eq, bit, htype, hlen, hkind]

end

end

theorem eventKindOf_valid {v : Nat} (h : v % 4 ≠ 3) :
    ∃ kind, eventKindOf (v % 4) = some kind ∧
      (v % 4 = 0 ∧ kind = .pulse ∨ v % 4 = 1 ∧ kind = .assert ∨ v % 4 = 2 ∧ kind = .release) := by
  obtain h | h | h : v % 4 = 0 ∨ v % 4 = 1 ∨ v % 4 = 2 := by omega
  · exact ⟨.pulse, by rw [h]; rfl, .inl ⟨h, rfl⟩⟩
  · exact ⟨.assert, by rw [h]; rfl, .inr (.inl ⟨h, rfl⟩)⟩
  · exact ⟨.release, by rw [h]; rfl, .inr (.inr ⟨h, rfl⟩)⟩

/-- An EVENT as it is sent, `rest` its payload and check byte. -/
theorem readReply_eventBytes {b0 b1 : Byte} {rest : List Byte} {kind : EventKind} (htype : b0.toNat % 4 = 1)
    (hlen : b0.toNat / 32 % 4 ≠ 3) (hrest : b0.toNat / 32 % 4 + 1 = rest.length)
    (hkind : eventKindOf (b1.toNat % 4) = some kind) (more : List Bool) :
    readReply (wireBits (b0 :: b1 :: rest) ++ more) = .complete (b0 :: b1 :: rest)
      (.event (Fin.ofNat 8 (b0.toNat / 4 % 8)) (b0.getLsbD 7) kind (Fin.ofNat 8 (b1.toNat / 4 % 8)) rest.dropLast) := by
  have hpayload : ((b0 :: b1 :: rest).take (b0.toNat / 32 % 4 + 2)).drop 2 = rest.dropLast := by
    simp [List.dropLast_eq_take, ← hrest]
  rw [readReply_event (by rwa [sample_first]) (by rwa [sample_first]) (by rwa [sample_second]), sample_first,
    sample_second, samples_wireBits_all (by simp only [List.length_cons]; omega),
    samples_wireBits_append (by simp only [List.length_cons]; omega), hpayload]

/-- Settles O49: the first two bytes sent choose the rule, and the bytes assembled are those sent. -/
theorem repliesAreReadByTheLayout : Obligations.RepliesAreReadByTheLayout := by
  refine ⟨fun ldi k => readReply_congr (funext (sample_append_high ldi k)), fun b0 b1 b2 b3 b4 more => ?_⟩
  refine ⟨fun htype => ?_, fun htype => ?_, fun htype => ?_, fun htype hlen => ?_, fun htype hlen hkind => ?_,
    fun htype hvalid => ?_⟩
  · rw [readReply_idle (by rwa [sample_first]), samples_wireBits_all (by rfl)]
  · refine ⟨Fin.ofNat 9 (b1.toNat % 8 + 1), Nat.mod_eq_of_lt (by omega), ?_⟩
    rw [readReply_hello (by rwa [sample_first]), samples_wireBits_all (by rfl), sample_second]
  · rw [readReply_badType (by rwa [sample_first]), samples_wireBits_all (by rfl)]
  · rw [readReply_badLength (by rwa [sample_first]) (by rwa [sample_first]), samples_wireBits_all (by rfl)]
  · rw [readReply_badKind (by rwa [sample_first]) (by rwa [sample_first]) (by rwa [sample_second]),
      samples_wireBits_all (by rfl)]
  · obtain ⟨kind, hkind, hcases⟩ := eventKindOf_valid hvalid
    have hread (rest : List Byte) (hlen : b0.toNat / 32 % 4 ≠ 3) (hrest : b0.toNat / 32 % 4 + 1 = rest.length) :=
      readReply_eventBytes htype hlen hrest hkind more
    refine ⟨Fin.ofNat 8 (b0.toNat / 4 % 8), Fin.ofNat 8 (b1.toNat / 4 % 8), kind, Nat.mod_mod .., Nat.mod_mod .., hcases,
      fun hlen => ?_, fun hlen => ?_, fun hlen => ?_⟩
    · exact hread [b2] (by omega) (by rw [hlen]; rfl)
    · exact hread [b2, b3] (by omega) (by rw [hlen]; rfl)
    · exact hread [b2, b3, b4] (by omega) (by rw [hlen]; rfl)

end Sys2Proof.Machine
end

section
/-! SUPPORT. The Link Engine (R100 to R109, R134 to R136, R139): what each happening of a slot answers in its state of the Link
Engine, what a fault does to the node of the slot, and runs over a slot; and the statements O50 to O54. -/

namespace Sys2Proof.Machine

/-! ## The window of a frame -/

theorem window_eq_some_iff {f : TxFrame} {slot : SlotKind} :
    f.window = some slot ↔ f.kind = .poll ∧ slot = .poll ∨ f.kind = .probe ∧ slot = .probe := by
  cases hkind : f.kind <;> simp [TxFrame.window, hkind, eq_comm]

theorem window_eq_none_iff {f : TxFrame} : f.window = none ↔ f.kind ≠ .poll ∧ f.kind ≠ .probe := by
  cases hkind : f.kind <;> simp [TxFrame.window, hkind]

theorem exists_window {f : TxFrame} (h : f.kind = .poll ∨ f.kind = .probe) : ∃ slot, f.window = some slot := by
  rcases h with h | h
  · exact ⟨.poll, window_eq_some_iff.mpr (.inl ⟨h, rfl⟩)⟩
  · exact ⟨.probe, window_eq_some_iff.mpr (.inr ⟨h, rfl⟩)⟩

/-! ## Transmission -/

section
variable {s : State} {f : TxFrame}

theorem reportTransmission_window {slot : SlotKind} (h : f.window = some slot) : s.reportTransmission f = s := by
  rcases window_eq_some_iff.mp h with ⟨hkind, -⟩ | ⟨hkind, -⟩ <;> simp only [State.reportTransmission, hkind]

theorem reportTransmission_done (hkind : f.kind = .done) : s.reportTransmission f = s := by
  simp only [State.reportTransmission, hkind]

theorem reportTransmission_admit (hkind : f.kind = .admitFrame) :
    s.reportTransmission f =
      if s.nodes[f.dest].state = .joining then
        (s.setNode f.dest { s.nodes[f.dest] with state := .active, faults := 0 }).raise (.nodeJoined f.dest)
      else s := by
  simp only [State.reportTransmission, hkind]

theorem reportTransmission_eject (hkind : f.kind = .eject) :
    s.reportTransmission f =
      if s.nodes[f.dest].state = .leaving then
        (s.setNode f.dest ⟨.absent, s.nodes[f.dest].join, s.nodes[f.dest].configLimit, 0, 0, 0, false, false, 0, 0⟩).raise
          (.nodeLeft f.dest)
      else s := by
  simp only [State.reportTransmission, hkind]
  rfl

variable (hlink : s.link = .send) (hframe : s.txBuffer = some f)
include hlink hframe

theorem execFrameTransmitted_reports :
    execFrameTransmitted s =
      .next ((s.reportTransmission f).enterLink (if f.window.isSome then .wait else .guard) 25) := by
  simp only [execFrameTransmitted, hlink, hframe]
  rfl

/-- A frame that opens a window reports nothing (R102). -/
theorem execFrameTransmitted_window {slot : SlotKind} (h : f.window = some slot) :
    execFrameTransmitted s = .next { s with link := .wait, bitTimer := 25 } := by
  rw [execFrameTransmitted_reports hlink hframe, reportTransmission_window h, h]
  rfl

theorem execFrameTransmitted_windowless (h : f.window = none) :
    execFrameTransmitted s = .next ((s.reportTransmission f).enterLink .guard 25) := by
  rw [execFrameTransmitted_reports hlink hframe, h]
  rfl

end

/-- Settles O50: the frame's window says where the Link Engine goes, the node's state what is reported. -/
theorem transmissionReportsAndMovesOn : Obligations.TransmissionReportsAndMovesOn := by
  rintro s f r hlink hframe rfl
  have hguard {t : State} (hkind : f.kind ≠ .poll ∧ f.kind ≠ .probe) (hreport : s.reportTransmission f = t) :
      exec .frameTransmitted s = .next (t.enterLink .guard 25) :=
    hreport ▸ execFrameTransmitted_windowless hlink hframe (window_eq_none_iff.mpr hkind)
  refine ⟨fun hkind => ?_, ?_, fun hkind hstate => ?_, fun hkind hstate => ?_⟩
  · obtain ⟨slot, hwindow⟩ := exists_window hkind
    exact execFrameTransmitted_window hlink hframe hwindow
  · rintro (hkind | ⟨hkind, hstate⟩ | ⟨hkind, hstate⟩)
    · exact hguard (by simp [hkind]) (reportTransmission_done hkind)
    · exact hguard (by simp [hkind]) ((reportTransmission_admit hkind).trans (if_neg hstate))
    · exact hguard (by simp [hkind]) ((reportTransmission_eject hkind).trans (if_neg hstate))
  · exact hguard (by simp [hkind]) ((reportTransmission_admit hkind).trans (if_pos hstate))
  · exact hguard (by simp [hkind]) ((reportTransmission_eject hkind).trans (if_pos hstate))

/-! ## Start bit, READ, framing error and guard -/

theorem execStartBit_opens {s : State} {k : Nat} (hlink : s.link = .wait) (hfirst : 1 ≤ k) (hlast : k ≤ s.slotWait) :
    execStartBit k s = .next { s with link := .read, bitTimer := 25 + k, shiftReg := [] } :=
  if_pos ⟨hlink, hfirst, hlast⟩

theorem execFramingError_drains {s : State} {ldi : List Bool} {bytes : List Byte} (hlink : s.link = .read)
    (hread : readReply ldi = .framing bytes) :
    execFramingError ldi s =
      .next { s with link := .drain, bitTimer := s.bitTimer + 8 * bytes.length, shiftReg := bytes } := by
  simp only [execFramingError, hlink, hread]
  rfl

theorem execGuardEnd_idles {s : State} (hlink : s.link = .guard) (hmode : s.mode ≠ .stopping) :
    execGuardEnd s = .next { s with link := .idle, bitTimer := 0, txBuffer := none } :=
  (if_pos hlink).trans (if_neg hmode)

/-- In READ the bytes complete by then have been assembled; fewer than eight samples more add nothing (log entry 10). -/
theorem shiftContents_read {s : State} (hlink : s.link = .read) (bytes : List Byte) {part : List Bool}
    (hpart : part.length < 8) : s.shiftContents (wireBits bytes ++ part) = bytes := by
  have hcount : (wireBits bytes ++ part).length / 8 = bytes.length := by
    rw [List.length_append, wireBits_length]
    omega
  simp only [State.shiftContents, hlink]
  exact samples_wireBits_all hcount part

/-- Settles O51: each clause is what its happening answers, and in READ what `shiftContents_read` counts. -/
theorem linkEngineMovesOn : Obligations.LinkEngineMovesOn := fun _ =>
  ⟨fun _ => execStartBit_opens, fun bytes _ hlink => shiftContents_read hlink bytes,
    fun _ _ => execFramingError_drains, execGuardEnd_idles⟩

/-! ## A node's work dismissed -/

section
variable (s : State) (n : Node)

theorem ofNode_iff {e : Entry} : e.ofNode n = true ↔ e.source = n.castSucc := decide_eq_true_iff

/-- A record written before the work is dismissed may as well be written after. -/
theorem dismissWork_setNode (r : NodeRecord) : (s.setNode n r).dismissWork n = (s.dismissWork n).setNode n r := by
  simp only [State.dismissWork, State.mapPending, State.markStacked, State.removeDones, State.setNode]

theorem loseNode_eq (k : Nat) :
    s.loseNode n k = { s with
      nodes := s.nodes.set n { s.nodes[n] with state := .lost, admittedLimit := 0, faults := k }
      table := (s.dismissWork n).table, stack := (s.dismissWork n).stack, queue := (s.dismissWork n).queue
      raised := s.raised ++ [.nodeLost n] } := by
  rw [State.loseNode, dismissWork_setNode]
  rfl

/-- R36: the EDGE pending entries of the node go stale, the HELD ones go. -/
theorem dismissWork_table (i : Fin 32) :
    (s.dismissWork n).table[i] = s.table[i].bind fun e =>
      if e.source = n.castSucc then (if e.kind = .edge then some { e with stale := true } else none) else some e := by
  simp only [← ofNode_iff]
  exact mapSlots_getElem ..

/-- R72: the stack entries of the node go stale. -/
theorem dismissWork_stack :
    (s.dismissWork n).stack = s.stack.map fun e =>
      if e.entry.source = n.castSucc then { e with entry := { e.entry with stale := true } } else e := by
  refine List.map_congr_left fun e _ => ?_
  simp only [ofNode_iff]
  rfl

/-- R121: the DONE frames for the node leave the queue. -/
theorem dismissWork_queue :
    (s.dismissWork n).queue = s.queue.filter fun g => !decide (g.dest = n ∧ g.body.kind = .done) := by
  simp only [Bool.decide_and]
  rfl

end

/-! ## A fault of the slot's node -/

section
variable {s : State} {n : Node}

theorem countFault_inactive (h : s.nodes[n].state ≠ .active) : s.countFault n = s :=
  if_neg h

@[simp] theorem slotFault_shiftReg (slot : SlotKind) : (s.slotFault n slot).shiftReg = s.shiftReg := by
  cases slot with
  | poll =>
    obtain ⟨_, _, _, _, _, hframe⟩ := countFault_frame s n
    rw [State.slotFault, hframe]
  | probe => rfl

theorem slotFault_uncounted {slot : SlotKind} (h : slot = .probe ∨ s.nodes[n].state ≠ .active) :
    s.slotFault n slot = s := by
  cases slot with
  | poll => exact countFault_inactive (h.resolve_left (by simp))
  | probe => rfl

theorem slotFault_counted (hactive : s.nodes[n].state = .active) (hbelow : s.nodes[n].faults + 1 < s.faultLimit) :
    s.slotFault n .poll = s.setNode n { s.nodes[n] with faults := s.nodes[n].faults + 1 } :=
  (countFault_active hactive).trans (if_neg (not_le.mpr hbelow))

/-- The loss of the node writes its record, dismisses its work and raises NODE_LOST (R136). -/
theorem slotFault_lost (hactive : s.nodes[n].state = .active) (hlimit : s.faultLimit ≤ s.nodes[n].faults + 1) :
    ∃ table : Vector (Option Entry) 32,
      s.slotFault n .poll = { s with
        nodes := s.nodes.set n { s.nodes[n] with state := .lost, admittedLimit := 0, faults := s.nodes[n].faults + 1 }
        table := table
        stack := s.stack.map fun e =>
          if e.entry.source = n.castSucc then { e with entry := { e.entry with stale := true } } else e
        queue := s.queue.filter fun g => !decide (g.dest = n ∧ g.body.kind = .done)
        raised := s.raised ++ [.nodeLost n] } ∧
      ∀ i : Fin 32, table[i] = s.table[i].bind fun e =>
        if e.source = n.castSucc then (if e.kind = .edge then some { e with stale := true } else none) else some e := by
  refine ⟨(s.dismissWork n).table, ?_, dismissWork_table s n⟩
  rw [State.slotFault, countFault_active hactive, if_pos hlimit, loseNode_eq, dismissWork_stack, dismissWork_queue]

end

/-! ## The end of a window -/

/-- The Link Engine in GUARD from a bit time of the slot on, with what is left in the shift register. -/
def State.closeWindow (s : State) (time : Nat) (shift : List Byte) : State :=
  { s with link := .guard, bitTimer := time, shiftReg := shift }

section
variable {s : State} {f : TxFrame} {slot : SlotKind} (hframe : s.txBuffer = some f) (hwindow : f.window = some slot)
include hframe hwindow

/-- The node of the slot and the kind of the slot, as the happenings that end a window read them. -/
theorem slot_eq : (s.txBuffer.bind fun f => f.window.map fun slot => (f.dest, slot)) = some (f.dest, slot) := by
  rw [hframe, Option.bind_some, hwindow, Option.map_some]

theorem execReplyWaitExpiry_guards (hlink : s.link = .wait) :
    execReplyWaitExpiry s = .next ((s.slotFault f.dest slot).closeWindow (25 + s.slotWait) s.shiftReg) := by
  simp only [execReplyWaitExpiry, hlink, slot_eq hframe hwindow]
  rw [← slotFault_shiftReg (s := s) (n := f.dest) slot]
  rfl

theorem execReplyReceived_guards {ldi : List Bool} {bytes : List Byte} {reply : Reply} (hlink : s.link = .read)
    (hread : readReply ldi = .complete bytes reply) :
    execReplyReceived ldi s =
      .next ((if checkPasses f.dest bytes then (s.assemble bytes).goodReply ⟨f.dest, slot, reply⟩
        else (s.assemble bytes).badFrame f.dest slot).closeWindow (s.bitTimer + 8 * bytes.length) []) := by
  simp only [execReplyReceived, hlink, slot_eq hframe hwindow, hread]
  rfl

theorem execDrainEnd_guards (hlink : s.link = .drain) :
    execDrainEnd s =
      .next ((s.badFrame f.dest slot).closeWindow (s.bitTimer - 8 * s.shiftReg.length + 40) []) := by
  simp only [execDrainEnd, hlink, slot_eq hframe hwindow]
  rfl

end

/-! ## A good reply -/

theorem goodReply_held {s : State} (r : ReplyRecord) (h : s.holding = none) :
    s.goodReply r = { s with holding := some r } := by
  simp only [State.goodReply, h]

theorem goodReply_overrun {s : State} (r : ReplyRecord) {held : ReplyRecord} (h : s.holding = some held) :
    s.goodReply r = s.raise (.rxOverrun r.node) := by
  simp only [State.goodReply, h]

/-- Settles O52: the good reply goes by the holding buffer. -/
theorem goodReplyIsHeldOrOverruns : Obligations.GoodReplyIsHeldOrOverruns := by
  intro s f slot ldi bytes reply hlink hframe hkind hread hcheck
  have hgood : exec (.replyReceived ldi) s = .next (((s.assemble bytes).goodReply ⟨f.dest, slot, reply⟩).closeWindow
      (s.bitTimer + 8 * bytes.length) []) := by
    refine (execReplyReceived_guards hframe (window_eq_some_iff.mpr hkind) hlink hread).trans ?_
    rw [if_pos hcheck]
  refine ⟨fun hempty => ?_, fun h hfull => ?_⟩
  · rw [hgood, goodReply_held _ (State.assemble_holding s bytes ▸ hempty)]
    rfl
  · rw [hgood, goodReply_overrun _ (State.assemble_holding s bytes ▸ hfull)]
    rfl

/-- Settles O53: each end of the window is `slotFault`, with LINK_FAULT raised before it in the two bad frames. -/
theorem slotOutcomesCountFaults : Obligations.SlotOutcomesCountFaults := by
  rintro s f n r out time shift raised hframe hkind rfl rfl hend
  obtain ⟨slot, hwindow⟩ := exists_window hkind
  have hslot := window_eq_some_iff.mp hwindow
  have hpollSlot (hpoll : f.kind = .poll) : slot = .poll := by simpa [hpoll] using hslot
  obtain ⟨bytes, hout⟩ : ∃ bytes, ∀ t, State.slotFault { s with raised, shiftReg := bytes } f.dest slot = t →
      out = .next (t.closeWindow time shift) := by
    rcases hend with ⟨hlink, rfl, rfl, rfl, rfl⟩ | ⟨ldi, bytes, reply, hlink, hread, hcheck, rfl, rfl, rfl, rfl⟩ |
      ⟨hlink, rfl, rfl, rfl, rfl⟩
    · exact ⟨s.shiftReg, fun _ ht => ht ▸ execReplyWaitExpiry_guards hframe hwindow hlink⟩
    · refine ⟨bytes, fun _ ht => ht ▸ (execReplyReceived_guards hframe hwindow hlink hread).trans ?_⟩
      rw [hcheck]
      rfl
    · exact ⟨s.shiftReg, fun _ ht => ht ▸ execDrainEnd_guards hframe hwindow hlink⟩
  refine ⟨fun huncounted => ?_, fun hpoll hactive hbelow => ?_, fun hpoll hactive hlimit => ?_⟩
  · have hnone : slot = .probe ∨ s.nodes[f.dest].state ≠ .active :=
      huncounted.imp_left fun hprobe => by simpa [hprobe] using hslot
    exact hout _ (slotFault_uncounted hnone)
  · obtain rfl := hpollSlot hpoll
    exact hout _ (slotFault_counted hactive hbelow)
  · obtain rfl := hpollSlot hpoll
    obtain ⟨table, hlost, htable⟩ := slotFault_lost (s := { s with raised, shiftReg := bytes }) hactive hlimit
    exact ⟨table, hout _ hlost, htable⟩

/-! ## Runs over a slot -/

/-- The front command of the queue is the first of a run. -/
theorem run_front {s t : State} {c : Instr} {rest : List Instr} (hpending : s.pending = c :: rest)
    (hexec : exec c { s with pending := rest } = .next t) (k : Nat) :
    Sys2Proof.core.run (k + 1) s = Sys2Proof.core.run k t := by
  have hstep : Sys2Proof.core.step s = .next t := by
    change step s = .next t
    rw [step, hpending]
    exact hexec
  simp only [Host.Core.run, hstep]

/-- The slot in WAIT, its frame just sent. -/
def State.waiting (s : State) (rest : List Instr) : State := { s with link := .wait, bitTimer := 25, pending := rest }

/-- The slot in READ, after a start bit in window bit time `j`. -/
def State.reading (s : State) (j : Nat) (rest : List Instr) : State :=
  { s with link := .read, bitTimer := 25 + j, shiftReg := [], pending := rest }

/-- The slot in DRAIN, the bytes up to the invalid field in the shift register. -/
def State.draining (s : State) (bytes : List Byte) (rest : List Instr) : State :=
  { s with link := .drain, bitTimer := s.bitTimer + 8 * bytes.length, shiftReg := bytes, pending := rest }

section
variable {s : State} {f : TxFrame} {slot : SlotKind} {rest : List Instr}

theorem run_startBit {j : Nat} (hlink : s.link = .wait) (hfirst : 1 ≤ j) (hlast : j ≤ s.slotWait)
    (hpending : s.pending = .startBit j :: rest) (k : Nat) :
    Sys2Proof.core.run (k + 1) s = Sys2Proof.core.run k (s.reading j rest) :=
  run_front hpending (execStartBit_opens (s := { s with pending := rest }) hlink hfirst hlast) k

theorem run_framingError {ldi : List Bool} {bytes : List Byte} (hlink : s.link = .read)
    (hread : readReply ldi = .framing bytes) (hpending : s.pending = .framingError ldi :: rest) (k : Nat) :
    Sys2Proof.core.run (k + 1) s = Sys2Proof.core.run k (s.draining bytes rest) :=
  run_front hpending (execFramingError_drains (s := { s with pending := rest }) hlink hread) k

variable (hframe : s.txBuffer = some f)
include hframe

theorem run_windowless (hwindow : f.window = none) (hlink : s.link = .send)
    (hpending : s.pending = .frameTransmitted :: rest) :
    ∃ t : State, Sys2Proof.core.run 1 s = .next t ∧ t.link = .guard ∧ t.bitTimer = 25 :=
  have hsent := execFrameTransmitted_windowless (s := { s with pending := rest }) hlink hframe hwindow
  ⟨_, run_front hpending hsent 0, rfl, rfl⟩

variable (hwindow : f.window = some slot)
include hwindow

theorem run_transmission (hlink : s.link = .send) (hpending : s.pending = .frameTransmitted :: rest) (k : Nat) :
    Sys2Proof.core.run (k + 1) s = Sys2Proof.core.run k (s.waiting rest) :=
  run_front hpending (execFrameTransmitted_window (s := { s with pending := rest }) hlink hframe hwindow) k

/-- From the load to a start bit in window bit time `j`. -/
theorem run_to_startBit {j : Nat} (hlink : s.link = .send) (hfirst : 1 ≤ j) (hlast : j ≤ s.slotWait)
    (hpending : s.pending = .frameTransmitted :: .startBit j :: rest) (k : Nat) :
    Sys2Proof.core.run (k + 2) s = Sys2Proof.core.run k (s.reading j rest) :=
  (run_transmission hframe hwindow hlink hpending (k + 1)).trans
    (run_startBit (s := s.waiting (.startBit j :: rest)) rfl hfirst hlast rfl k)

theorem run_replyWaitExpiry (hlink : s.link = .wait) (hpending : s.pending = .replyWaitExpiry :: rest) :
    ∃ t : State, Sys2Proof.core.run 1 s = .next t ∧ t.link = .guard ∧ t.bitTimer = 25 + s.slotWait :=
  have hended := execReplyWaitExpiry_guards (s := { s with pending := rest }) hframe hwindow hlink
  ⟨_, run_front hpending hended 0, rfl, rfl⟩

theorem run_replyReceived {ldi : List Bool} {bytes : List Byte} {reply : Reply} (hlink : s.link = .read)
    (hread : readReply ldi = .complete bytes reply) (hpending : s.pending = .replyReceived ldi :: rest) :
    ∃ t : State, Sys2Proof.core.run 1 s = .next t ∧ t.link = .guard ∧ t.bitTimer = s.bitTimer + 8 * bytes.length :=
  have hended := execReplyReceived_guards (s := { s with pending := rest }) hframe hwindow hlink hread
  ⟨_, run_front hpending hended 0, rfl, rfl⟩

/-- DRAIN ends 40 bit times after the start bit, whatever bytes the bad reply had by then (R105). -/
theorem run_drainEnd {start : Nat} (hlink : s.link = .drain) (hstart : s.bitTimer - 8 * s.shiftReg.length = start)
    (hpending : s.pending = .drainEnd :: rest) :
    ∃ t : State, Sys2Proof.core.run 1 s = .next t ∧ t.link = .guard ∧ t.bitTimer = start + 40 :=
  have hended := execDrainEnd_guards (s := { s with pending := rest }) hframe hwindow hlink
  ⟨_, run_front hpending hended 0, rfl, congrArg (· + 40) hstart⟩

end

/-- Settles O54: the runs of a slot up to its guard, one happening after the other. -/
theorem slotLengthFollowsTheReply : Obligations.SlotLengthFollowsTheReply := by
  intro s f rest hlink hframe
  refine ⟨fun hpoll hprobe => run_windowless hframe (window_eq_none_iff.mpr ⟨hpoll, hprobe⟩) hlink, fun hkind => ?_⟩
  obtain ⟨slot, hwindow⟩ := exists_window hkind
  refine ⟨fun hpending => ?_,
    fun k hfirst hlast ldi bytes => ⟨fun reply hread hpending => ?_, fun hread hpending => ?_⟩⟩
  · rw [run_transmission hframe hwindow hlink hpending]
    exact run_replyWaitExpiry (s := s.waiting _) hframe hwindow rfl rfl
  · rw [run_to_startBit hframe hwindow hlink hfirst hlast hpending]
    exact run_replyReceived (s := s.reading k _) hframe hwindow rfl hread rfl
  · rw [run_to_startBit hframe hwindow hlink hfirst hlast hpending,
      run_framingError (s := s.reading k _) rfl hread rfl]
    exact run_drainEnd (s := (s.reading k _).draining bytes _) hframe hwindow rfl (Nat.add_sub_cancel ..) rfl

end Sys2Proof.Machine
end

section
/-! SUPPORT. The Scheduler (R113 to R120, R126): what each step of a choice gives, and what a choice can give once no outbound
frame is loaded. -/

namespace Sys2Proof.Machine

/-! ## Searches in ascending order -/

/-- A search in ascending order of `key` ends at the least of what it looks for. -/
theorem find?_eq_some_of_least {α : Type} {l : List α} {key : α → Nat} (hsorted : l.Pairwise fun a b => key a < key b)
    {p : α → Bool} {a : α} (hmem : a ∈ l) (ha : p a = true) (hleast : ∀ b ∈ l, p b = true → key a ≤ key b) :
    l.find? p = some a := by
  induction l with
  | nil => cases hmem
  | cons b l ih =>
    obtain ⟨hhead, htail⟩ := List.pairwise_cons.mp hsorted
    rcases List.mem_cons.mp hmem with rfl | hmem
    · exact List.find?_cons_of_pos ha
    · have hb : ¬ p b = true := fun hb => absurd (hhead a hmem) (not_lt.mpr (hleast b List.mem_cons_self hb))
      rw [List.find?_cons_of_neg hb, ih htail hmem fun b hb => hleast b (List.mem_cons_of_mem _ hb)]

theorem nodeList_sorted : nodeList.Pairwise fun a b => a.val < b.val := List.pairwise_lt_finRange 15

theorem nodesAfter_sorted (p : Node) : (nodesAfter p).Pairwise fun a b => nodeDistance p a < nodeDistance p b := by
  revert p
  decide

theorem mem_nodesAfter (p n : Node) : n ∈ nodesAfter p := by
  revert p n
  decide

/-! ## Step 1: outbound -/

/-- R120: an EJECT is loaded whatever its node's state, a DONE for an ACTIVE node, an ADMIT for a JOINING one. -/
theorem sendable_iff {f : OutFrame} {state : NodeState} :
    f.sendable state = true ↔
      f.body.kind = .eject ∨ (f.body.kind = .done ∧ state = .active) ∨ (f.body.kind = .admitFrame ∧ state = .joining) := by
  obtain ⟨dest, body⟩ := f
  cases body <;> simp [OutFrame.sendable, OutBody.kind]

theorem outBody_kind_ne_poll (body : OutBody) : body.kind ≠ .poll := by
  cases body <;> simp [OutBody.kind]

section
variable {nodes : Vector NodeRecord 15}

theorem takeHead_eq_some {dropped rest : List OutFrame} {f : OutFrame}
    (hdropped : ∀ g ∈ dropped, ¬ g.sendable nodes[g.dest].state = true) (hf : f.sendable nodes[f.dest].state = true) :
    takeHead nodes (dropped ++ f :: rest) = some (f, rest) := by
  induction dropped with
  | nil => exact if_pos hf
  | cons g dropped ih =>
    obtain ⟨hg, hdropped⟩ := List.forall_mem_cons.mp hdropped
    exact (if_neg hg).trans (ih hdropped)

theorem takeHead_eq_none {l : List OutFrame} (h : ∀ g ∈ l, ¬ g.sendable nodes[g.dest].state = true) :
    takeHead nodes l = none := by
  induction l with
  | nil => rfl
  | cons g l ih =>
    obtain ⟨hg, hl⟩ := List.forall_mem_cons.mp h
    exact (if_neg hg).trans (ih hl)

end

section
variable {s : State}

theorem stepOutbound_loads {f : OutFrame} {rest : List OutFrame} (hcount : s.outCount < 2)
    (hhead : takeHead s.nodes s.queue = some (f, rest)) :
    s.stepOutbound =
      .loaded ({ s with queue := rest, outCount := s.outCount + 1 }.loadFrame f.dest f.body.kind f.body.arg) := by
  simp only [State.stepOutbound, if_neg (not_le.mpr hcount), hhead]

theorem stepOutbound_empties (hcount : s.outCount < 2) (hhead : takeHead s.nodes s.queue = none) :
    s.stepOutbound = .goOn { s with queue := [] } := by
  simp only [State.stepOutbound, if_neg (not_le.mpr hcount), hhead]

theorem stepOutbound_passes (h : 2 ≤ s.outCount ∨ s.queue = []) : s.stepOutbound = .goOn s := by
  by_cases hcount : 2 ≤ s.outCount
  · exact if_pos hcount
  · have hqueue : s.queue = [] := h.resolve_left hcount
    rw [stepOutbound_empties (not_le.mp hcount) (by rw [hqueue]; rfl), ← hqueue]

/-- What step 1 can do: load the frame of a queued body, or go on with the queue as it was or emptied (R115). -/
theorem stepOutbound_cases (s : State) :
    (∃ (u : State) (n : Node) (body : OutBody), s.stepOutbound = .loaded (u.loadFrame n body.kind body.arg)) ∨
      ∃ queue, s.stepOutbound = .goOn { s with queue } := by
  by_cases hcount : 2 ≤ s.outCount
  · exact .inr ⟨s.queue, stepOutbound_passes (.inl hcount)⟩
  · cases hhead : takeHead s.nodes s.queue with
    | none => exact .inr ⟨[], stepOutbound_empties (not_le.mp hcount) hhead⟩
    | some head => exact .inl ⟨_, _, _, stepOutbound_loads (not_le.mp hcount) hhead⟩

end

/-! ## Step 2: burst -/

section
variable {s : State} {n : Node}

theorem stepBurst_loads (hburst : s.burst = .armed n) (hactive : s.nodes[n].state = .active) :
    s.stepBurst = .loaded ({ s with burst := .spent, outCount := 0 }.loadPoll n) := by
  have h : s.isActive n = true := decide_eq_true hactive
  simp only [State.stepBurst, hburst, h, if_true]

theorem stepBurst_clears (hburst : s.burst = .armed n) (hactive : s.nodes[n].state ≠ .active) :
    s.stepBurst = .goOn { s with burst := .clear } := by
  have h : s.isActive n = false := isActive_eq_false.mpr hactive
  simp only [State.stepBurst, hburst, h, Bool.false_eq_true, if_false]

theorem stepBurst_passes (hburst : s.burst = .clear ∨ s.burst = .spent) : s.stepBurst = .goOn s := by
  rcases hburst with hburst | hburst <;> simp only [State.stepBurst, hburst]

theorem afterPoll_clear {b : BurstFlag} (hburst : b = .clear ∨ b = .spent) : b.afterPoll = .clear := by
  rcases hburst with rfl | rfl <;> rfl

end

/-! ## Steps 3 to 5: the ring and the discovery slot -/

section
variable {s : State} {n : Node}

/-- Whether the ring has node `n` still to poll in this pass: it is ACTIVE and above the ring position, which counts as below
every node at 15 (R118). -/
abbrev State.Ahead (s : State) (n : Node) : Prop := s.nodes[n].state = .active ∧ (s.ring = 15 ∨ s.ring.val < n.val)

theorem nextInRing_test : (s.isActive n && (decide (s.ring = 15) || decide (s.ring.val < n.val))) = true ↔ s.Ahead n := by
  simp [State.isActive]

theorem nextInRing_eq_some (hahead : s.Ahead n) (hleast : ∀ m, s.Ahead m → n ≤ m) : s.nextInRing = some n :=
  find?_eq_some_of_least nodeList_sorted (mem_nodeList n) (nextInRing_test.mpr hahead)
    fun m _ hm => hleast m (nextInRing_test.mp hm)

theorem nextInRing_eq_none (h : ∀ m, ¬ s.Ahead m) : s.nextInRing = none :=
  List.find?_eq_none.mpr fun m _ hm => h m (nextInRing_test.mp hm)

theorem nextInRing_active (h : s.nextInRing = some n) : s.nodes[n].state = .active := by
  have htest := List.find?_some h
  exact (nextInRing_test.mp htest).1

/-- R119: a node qualifies for discovery when join is yes and it is ABSENT or LOST. -/
theorem discoverable_iff {r : NodeRecord} :
    r.discoverable = true ↔ r.join = true ∧ (r.state = .absent ∨ r.state = .lost) := by
  simp [NodeRecord.discoverable]

theorem nextDiscovered_eq_some (hn : s.nodes[n].discoverable = true)
    (hleast : ∀ m : Node, s.nodes[m].discoverable = true → nodeDistance s.discovery n ≤ nodeDistance s.discovery m) :
    s.nextDiscovered = some n :=
  find?_eq_some_of_least (nodesAfter_sorted s.discovery) (mem_nodesAfter s.discovery n) hn
    fun m _ => hleast m

theorem nextDiscovered_eq_none (h : ∀ m : Node, ¬ s.nodes[m].discoverable = true) : s.nextDiscovered = none :=
  List.find?_eq_none.mpr fun m _ => h m

theorem pollOrProbe_ring (hring : s.nextInRing = some n) : s.pollOrProbe = s.ringPoll n := by
  simp only [State.pollOrProbe, hring]

/-- At the end of a pass, what follows is decided with the ring position at 15 (R118). -/
theorem pollOrProbe_passEnds (hring : s.nextInRing = none) :
    s.pollOrProbe =
      match { s with ring := 15 }.nextDiscovered, { s with ring := 15 }.nextInRing with
      | some m, _ => State.probe { s with ring := 15 } m
      | none, some m => State.ringPoll { s with ring := 15 } m
      | none, none => { s with ring := 15 } := by
  simp only [State.pollOrProbe, hring]
  cases { s with ring := 15 }.nextDiscovered with
  | some m => rfl
  | none => cases { s with ring := 15 }.nextInRing <;> rfl

end

/-! ## The choice -/

section
variable {s t u : State}

theorem exec_schedulerChoice (hmode : s.mode = .run) (hlink : s.link = .idle) :
    exec .schedulerChoice s = .next s.choose :=
  if_pos ⟨hmode, hlink⟩

theorem choose_outbound (houtbound : s.stepOutbound = .loaded t) : s.choose = t := by
  simp only [State.choose, houtbound]

theorem choose_burst (houtbound : s.stepOutbound = .goOn u) (hburst : u.stepBurst = .loaded t) : s.choose = t := by
  simp only [State.choose, houtbound, hburst]

theorem choose_poll (houtbound : s.stepOutbound = .goOn t) (hburst : t.stepBurst = .goOn u) : s.choose = u.pollOrProbe := by
  simp only [State.choose, houtbound, hburst]

/-- Two states with which step 1 goes on alike give one choice. -/
theorem choose_congr (hs : s.stepOutbound = .goOn u) (ht : t.stepOutbound = .goOn u) : s.choose = t.choose := by
  simp only [State.choose, hs, ht]

end

/-- What a choice can give once step 1 has gone on with `s`: nothing loaded, the POLL of an ACTIVE node, or a PROBE, with the
Scheduler's own fields at some values and the rest of the state as it was (R115). -/
inductive State.PollChoice (s : State) : State → Prop
  | nothing (ring : Fin 16) (discovery : Node) (burst : BurstFlag) (outCount : Nat) :
    s.PollChoice { s with ring, discovery, burst, outCount }
  | poll (ring : Fin 16) (discovery : Node) (burst : BurstFlag) (outCount : Nat) (n : Node)
    (hactive : s.nodes[n].state = .active) : s.PollChoice ({ s with ring, discovery, burst, outCount }.loadPoll n)
  | probe (ring : Fin 16) (discovery : Node) (burst : BurstFlag) (outCount : Nat) (n : Node) :
    s.PollChoice ({ s with ring, discovery, burst, outCount }.loadFrame n .probe 0x00#8)

theorem pollOrProbe_pollChoice (s : State) (burst : BurstFlag) : s.PollChoice { s with burst }.pollOrProbe := by
  cases hring : { s with burst }.nextInRing with
  | some n =>
    rw [pollOrProbe_ring hring]
    exact .poll _ s.discovery _ _ n (nextInRing_active hring)
  | none =>
    rw [pollOrProbe_passEnds hring]
    split
    next m hprobe => exact .probe _ _ _ _ m
    next m _ hpoll =>
      have hactive := nextInRing_active hpoll
      exact .poll _ s.discovery _ _ m hactive
    next => exact .nothing _ s.discovery burst s.outCount

theorem choose_pollChoice {s t : State} (houtbound : s.stepOutbound = .goOn t) : t.PollChoice s.choose := by
  by_cases hquiet : t.burst = .clear ∨ t.burst = .spent
  · rw [choose_poll houtbound (stepBurst_passes hquiet)]
    exact pollOrProbe_pollChoice t t.burst
  · obtain ⟨n, hburst⟩ : ∃ n, t.burst = .armed n := by
      cases hb : t.burst with
      | clear => exact absurd (.inl hb) hquiet
      | armed n => exact ⟨n, rfl⟩
      | spent => exact absurd (.inr hb) hquiet
    by_cases hactive : t.nodes[n].state = .active
    · rw [choose_burst houtbound (stepBurst_loads hburst hactive)]
      exact .poll t.ring t.discovery _ _ n hactive
    · rw [choose_poll houtbound (stepBurst_clears hburst hactive)]
      exact pollOrProbe_pollChoice t .clear

/-! ## The POLL and its flow control -/

/-- R126: the hold indication, by the pool count and the node's held credits. -/
theorem hold_iff {s : State} (hpool : s.PoolBounded) {n : Node} :
    s.hold n = true ↔ s.poolCount = 24 ∨ s.nodes[n].admittedLimit.val ≤
      (s.pendingEntries.filter fun e => decide (e.source = n.castSucc ∧ e.stale = false)).length +
        (s.stack.filter fun e => decide (e.entry.source = n.castSucc ∧ e.entry.stale = false)).length +
        (s.queue.filter fun g => decide (g.dest = n ∧ g.body.kind = .done)).length := by
  have hcredit (e : Entry) : e.creditOf n = decide (e.source = n.castSucc ∧ e.stale = false) :=
    Bool.eq_iff_iff.mpr (by simp [Entry.creditOf, ofNode_iff])
  have hdone (g : OutFrame) : g.doneFor n = decide (g.dest = n ∧ g.body.kind = .done) := by simp [OutFrame.doneFor]
  have hfull : s.poolFull = true ↔ s.poolCount = 24 := decide_eq_true_iff.trans ⟨le_antisymm hpool, fun h => h.ge⟩
  rw [State.hold, Bool.or_eq_true, hfull, decide_eq_true_iff, State.heldCredits]
  simp only [List.countP_eq_length_filter, hcredit, hdone]

/-- The argument byte of a POLL: the hold indication, the new-entry indication and ack valid above the sequence (R99). -/
theorem pollArg_eq (lastAck : Seq) (ackValid newEntry hold : Bool) :
    pollArg lastAck ackValid newEntry hold =
      BitVec.ofNat 8 (32 * hold.toNat + 16 * newEntry.toNat + 8 * ackValid.toNat + lastAck.val) := by
  refine congrArg (BitVec.ofNat 8) ?_
  simp only [field, flag]
  omega

theorem poll_bytes (n : Node) (arg : Byte) :
    (TxFrame.build n .poll arg).bytes =
      [BitVec.ofNat 8 (16 + n.val), arg, crc8 0x00#8 [BitVec.ofNat 8 (16 + n.val), arg]] := by
  have hlead : leadByte n .poll = BitVec.ofNat 8 (16 + n.val) := leadByte_eq n .poll
  rw [← hlead]
  rfl

/-- A POLL in the transmit buffer after a choice from IDLE was built for an ACTIVE node, from its record and the hold
indication as they stand once step 1 has left the queue as it is after the choice (R126). -/
theorem choose_loads_poll {s : State} {f : TxFrame} (hlink : s.link = .idle) (hsend : s.choose.link = .send)
    (hframe : s.choose.txBuffer = some f) (hkind : f.kind = .poll) :
    ∃ n : Node, s.nodes[n].state = .active ∧
      f = TxFrame.build n .poll (pollArg s.nodes[n].lastAck s.nodes[n].ackValid s.nodes[n].newEntry
        ({ s with queue := s.choose.queue }.hold n)) := by
  rcases stepOutbound_cases s with ⟨u, n, body, houtbound⟩ | ⟨queue, houtbound⟩
  · rw [choose_outbound houtbound] at hframe
    cases hframe
    exact absurd hkind (outBody_kind_ne_poll body)
  · have hchoice := choose_pollChoice houtbound
    generalize s.choose = t at hchoice hsend hframe ⊢
    cases hchoice with
    | nothing => simp [hlink] at hsend
    | poll _ _ _ _ n hactive => exact ⟨n, hactive, by cases hframe; rfl⟩
    | probe => cases hframe; cases hkind

/-! ## The statements of the Scheduler -/

/-- Settles O43: step 1 loads the first frame that passes the head check, or goes on; past it a choice loads only a POLL or a
PROBE. -/
theorem choiceTakesOutboundFrames : Obligations.ChoiceTakesOutboundFrames := by
  intro s ok hok hmode hlink
  simp only [← sendable_iff] at hok
  simp only [hok, exec_schedulerChoice hmode hlink]
  refine ⟨fun hcount dropped rest f hqueue hdropped hf => ?_, fun hcount hnone => ?_, fun hcount => ?_⟩
  · have hhead : takeHead s.nodes s.queue = some (f, rest) := hqueue ▸ takeHead_eq_some hdropped hf
    rw [choose_outbound (stepOutbound_loads hcount hhead)]
    rfl
  · rw [exec_schedulerChoice (s := { s with queue := [] }) hmode hlink,
      choose_congr (stepOutbound_empties hcount (takeHead_eq_none hnone)) (stepOutbound_passes (.inr rfl))]
  · refine ⟨_, rfl, ?_⟩
    have hchoice := choose_pollChoice (stepOutbound_passes (.inl hcount))
    generalize s.choose = t at hchoice ⊢
    cases hchoice with
    | nothing => exact ⟨rfl, fun f hsend => by simp [hlink] at hsend⟩
    | poll => exact ⟨rfl, fun f _ hf => .inl (by cases hf; rfl)⟩
    | probe => exact ⟨rfl, fun f _ hf => .inr (by cases hf; rfl)⟩

/-- Settles O44: step 2 by the burst flag and its node's state, and step 3 by the ring. -/
theorem burstAndRingPolls : Obligations.BurstAndRingPolls := by
  intro s n hmode hlink hpass
  have houtbound := stepOutbound_passes hpass
  simp only [exec_schedulerChoice hmode hlink]
  refine ⟨fun hburst hactive => ?_, fun hburst hactive => ?_, fun hburst hactive hring hleast => ?_⟩
  · rw [choose_burst houtbound (stepBurst_loads hburst hactive)]
    exact ⟨_, rfl⟩
  · rw [exec_schedulerChoice (s := { s with burst := .clear }) hmode hlink,
      choose_poll houtbound (stepBurst_clears hburst hactive),
      choose_poll (s := { s with burst := .clear }) (stepOutbound_passes hpass) (stepBurst_passes (.inl rfl))]
  · have hnext : s.nextInRing = some n := nextInRing_eq_some ⟨hactive, hring⟩ fun m hm => hleast m hm.1 hm.2
    rw [choose_poll houtbound (stepBurst_passes hburst), pollOrProbe_ring hnext, State.ringPoll, afterPoll_clear hburst]
    exact ⟨_, rfl⟩

/-- Settles O45: the end of a pass, by what the discovery slot and then the ring find. -/
theorem passEndsWithADiscoverySlot : Obligations.PassEndsWithADiscoverySlot := by
  intro s qualifies hqualifies hmode hlink hpass hburst hnoneAhead
  simp only [← discoverable_iff] at hqualifies
  have hend : s.nextInRing = none := nextInRing_eq_none fun m ⟨hactive, hring⟩ => by
    obtain ⟨hne, hle⟩ := hnoneAhead m hactive
    exact hring.elim hne (not_lt.mpr hle)
  simp only [hqualifies, exec_schedulerChoice hmode hlink, choose_poll (stepOutbound_passes hpass) (stepBurst_passes hburst),
    pollOrProbe_passEnds hend]
  refine ⟨fun n hn hleast => ?_, fun hnone => ⟨fun n hactive hleast => ?_, fun hidle => ?_⟩⟩
  · rw [nextDiscovered_eq_some (s := { s with ring := 15 }) hn hleast]
    simp only [State.probe, afterPoll_clear hburst]
    rfl
  · rw [nextDiscovered_eq_none (s := { s with ring := 15 }) hnone,
      nextInRing_eq_some (s := { s with ring := 15 }) ⟨hactive, .inl rfl⟩ fun m hm => hleast m hm.1]
    simp only [State.ringPoll, afterPoll_clear hburst]
    exact ⟨_, rfl⟩
  · rw [nextDiscovered_eq_none (s := { s with ring := 15 }) hnone,
      nextInRing_eq_none (s := { s with ring := 15 }) fun m hm => hidle m hm.1]

/-- Settles O46: the byte and the frame follow from the load, and the hold indication from the queue as the choice leaves it. -/
theorem pollCarriesAcknowledgementAndHold : Obligations.PollCarriesAcknowledgementAndHold := by
  intro s t f r hold hpool hmode hlink hexec hsend hframe hkind hr hhold
  obtain rfl : s.choose = t := by
    rw [exec_schedulerChoice hmode hlink] at hexec
    cases hexec
    rfl
  obtain ⟨n, hactive, rfl⟩ := choose_loads_poll hlink hsend hframe hkind
  subst hr
  have hheld : hold = { s with queue := s.choose.queue }.hold n :=
    Bool.eq_iff_iff.mpr (hhold.trans (hold_iff (s := { s with queue := s.choose.queue }) hpool).symm)
  exact ⟨hactive, hheld ▸ pollArg_eq _ _ _ _, poll_bytes ..⟩

end Sys2Proof.Machine
end

section
/-! SUPPORT. Insertions and local postings from the place they find (R21, R23, R30, R144): what each gives where its condition
holds. -/

namespace Sys2Proof.Machine

/-! ## The next place -/

section
variable {s : State}

theorem tagLive_eq_false_iff {t : Tag} : s.tagLive t = false ↔ t ∉ s.liveTags := by
  rw [← Bool.not_eq_true, tagLive_iff]
  simp [State.liveTags]

/-- The `i`-th tag that the allocator tries lies `i` from the first (R23). -/
theorem tagDistance_tried (last : Tag) {i : Nat} (hi : i < 63) :
    tagDistance last (Fin.ofNat 64 ((last.val + i) % 63 + 1)) = i := by
  have hlast := last.isLt
  simp only [tagDistance, Fin.ofNat]
  omega

theorem tagOrder_sorted (last : Tag) : (tagOrder last).Pairwise fun a b => tagDistance last a < tagDistance last b := by
  refine List.pairwise_map.mpr (List.pairwise_lt_range.imp_of_mem fun {i j} hi hj hlt => ?_)
  rwa [tagDistance_tried last (List.mem_range.mp hi), tagDistance_tried last (List.mem_range.mp hj)]

/-- The allocator tries every tag from 1 to 63. -/
theorem mem_tagOrder (last : Tag) {t : Tag} (ht : t ≠ 0) : t ∈ tagOrder last := by
  have hpos : 0 < t.val := Fin.pos_iff_ne_zero.mpr ht
  have hlast := last.isLt
  have hlt := t.isLt
  refine List.mem_map.mpr ⟨tagDistance last t, List.mem_range.mpr (Nat.mod_lt _ (by decide)), Fin.ext ?_⟩
  simp only [tagDistance, Fin.ofNat]
  omega

theorem slots_sorted : slots.Pairwise fun a b => a.val < b.val := List.pairwise_lt_finRange 32

variable {i : Fin 32} {t : Tag} (hplace : s.NextPlace i t)
include hplace

theorem freeSlot_eq_some : s.freeSlot = some i := by
  obtain ⟨hempty, hlowest, -, -, -⟩ := hplace
  refine find?_eq_some_of_least slots_sorted (mem_slots i) (by simp [hempty]) fun j _ hj => not_lt.mp fun hlt => ?_
  exact hlowest j hlt (by simpa using hj)

theorem nextTag_eq_some : s.nextTag = some t := by
  obtain ⟨-, -, hne, hdead, hnearest⟩ := hplace
  exact find?_eq_some_of_least (tagOrder_sorted s.lastTag) (mem_tagOrder s.lastTag hne)
    (by simp [tagLive_eq_false_iff.mpr hdead])
    fun u hu hfree => hnearest u (tagOrder_ne_zero hu) (tagLive_eq_false_iff.mp (by simpa using hfree))

/-- An insertion takes the next place. -/
theorem insertEntry_nextPlace (src : Source) (line : Line) (kind : Kind) (payload : List Byte) (repost : Bool) :
    s.insertEntry src line kind payload repost =
      .ok { s with table := s.table.set i (some ⟨t, src, line, kind, 1, payload, false, repost⟩), lastTag := t } := by
  simp only [State.insertEntry, freeSlot_eq_some hplace, nextTag_eq_some hplace]
  rfl

end

/-! ## Searches of the Pending Table -/

section
variable {s : State} {p : Entry → Bool}

theorem findPending_isSome : (s.findPending p).isSome = true ↔ ∃ e ∈ s.pendingEntries, p e = true := by
  rw [← not_iff_not, Bool.not_eq_true, Option.isSome_eq_false_iff, Option.isNone_iff_eq_none, findPending_none]
  simp

/-- A search for what one slot alone answers to finds that slot. -/
theorem findPending_eq_some {i : Fin 32} {e : Entry} (he : s.table[i] = some e) (hp : p e = true)
    (hunique : ∀ (j : Fin 32) (f : Entry), s.table[j] = some f → p f = true → i = j) :
    s.findPending p = some (i, e) := by
  have hfound : (s.findPending p).isSome = true := findPending_isSome.mpr ⟨e, mem_pendingEntries.mpr ⟨i, he⟩, hp⟩
  obtain ⟨⟨j, f⟩, hfind⟩ := Option.isSome_iff_exists.mp hfound
  obtain ⟨hf, hpf⟩ := findPending_some hfind
  obtain rfl := hunique j f hf hpf
  cases he.symm.trans hf
  exact hfind

theorem pendingOn_eq_none {src : Source} {line : Line} (h : ∀ e ∈ s.pendingEntries, ¬ (e.source = src ∧ e.line = line)) :
    s.pendingOn src line = none :=
  findPending_none.mpr fun e he => eq_false_of_ne_true fun hon => h e he (on_iff.mp hon)

end

/-! ## Uniqueness of lines -/

/-- Every update of entries that keeps their lines keeps these unique (R22). -/
theorem mapPending_linesUnique {s : State} {f : Entry → Option Entry}
    (hf : ∀ e, ∀ e' ∈ f e, e'.source = e.source ∧ e'.line = e.line) (hlines : s.LinesUnique) :
    (s.mapPending f).LinesUnique := by
  have hentries : (s.mapPending f).pendingEntries = s.pendingEntries.filterMap f := by
    simp [State.pendingEntries, List.filterMap_map, List.filterMap_filterMap]
  rw [State.LinesUnique, hentries]
  refine hlines.filterMap f fun a b hne a' ha' b' hb' ⟨hsource, hline⟩ => hne ?_
  obtain ⟨hsa, hla⟩ := hf a a' ha'
  obtain ⟨hsb, hlb⟩ := hf b b' hb'
  exact ⟨hsa ▸ hsb ▸ hsource, hla ▸ hlb ▸ hline⟩

theorem dismissWork_linesUnique {s : State} (n : Node) (hlines : s.LinesUnique) : (s.dismissWork n).LinesUnique := by
  refine mapPending_linesUnique (fun e e' he' => ?_) hlines
  split at he'
  · split at he'
    · cases he'
      exact ⟨rfl, rfl⟩
    · cases he'
  · cases he'
    exact ⟨rfl, rfl⟩

/-! ## Postings -/

section
variable {s : State} {line : Line} {payload : List Byte} (henabled : s.lineMap[15][line].enable = true)
include henabled

theorem post_merges (hlines : s.LinesUnique) {i : Fin 32} {e : Entry} (he : s.table[i] = some e) (hsource : e.source = 15)
    (hline : e.line = line) :
    s.post line payload = .ok { s with
      table := s.table.set i
        (some { e with count := min (e.count + 1) 15, payload := List.zipWith (· ||| ·) e.payload payload }) } := by
  have hpending : s.pendingOn localSource line = some (i, e) := by
    rw [← pendingOn_self hlines he, hsource, hline]
    rfl
  simp only [State.post, if_pos (show (s.lineConfig localSource line).enable = true from henabled), hpending]
  rfl

theorem post_inserts (hnone : ∀ e ∈ s.pendingEntries, ¬ (e.source = 15 ∧ e.line = line)) {i : Fin 32} {t : Tag}
    (hplace : s.NextPlace i t) :
    s.post line payload = .ok { s with
      table := s.table.set i (some ⟨t, 15, line, .edge, 1, payload, false, false⟩), lastTag := t } := by
  simp only [State.post, if_pos (show (s.lineConfig localSource line).enable = true from henabled),
    pendingOn_eq_none (src := localSource) hnone]
  exact insertEntry_nextPlace hplace ..

end

/-- The node set of one node is the two bytes that have its bit alone (R144). -/
theorem nodeSet_eq {n : Node} {b0 b1 : Byte}
    (hbits : ∀ k : Nat, k < 8 → (b0.getLsbD k = true ↔ n.val = k) ∧ (b1.getLsbD k = true ↔ n.val = 8 + k)) :
    nodeSet n = [b0, b1] := by
  have hlow : BitVec.ofNat 8 (2 ^ n.val) = b0 := BitVec.eq_of_getLsbD_eq fun k hk => by
    rw [Bool.eq_iff_iff, (hbits k hk).1, BitVec.getLsbD_ofNat, Nat.testBit_two_pow]
    simp [hk]
  have hhigh : BitVec.ofNat 8 (2 ^ n.val / 256) = b1 := BitVec.eq_of_getLsbD_eq fun k hk => by
    rw [Bool.eq_iff_iff, (hbits k hk).2, BitVec.getLsbD_ofNat, show 256 = 2 ^ 8 from rfl, Nat.testBit_div_two_pow,
      Nat.testBit_two_pow]
    simp [hk, Nat.add_comm]
  rw [nodeSet, hlow, hhigh]

end Sys2Proof.Machine
end

section
/-! SUPPORT. Replies that reach no decision (R122, R123, R125): the take, the arming of the burst flag, and the state in which a
sequence fault posts PROTOCOL_FAULT. -/

namespace Sys2Proof.Machine

/-! ## The take -/

section
variable {s : State}

theorem admissionHeld_eq_false (hfree : s.retiring = none) : s.admissionHeld = false := by
  unfold State.retiring at hfree
  unfold State.admissionHeld
  cases hcommand : s.command with
  | retire n next => simp [hcommand] at hfree
  | idle => rfl
  | stop => rfl
  | restart next => rfl

theorem exec_admissionTake {r : ReplyRecord} (hfull : s.holding = some r) (hfree : s.retiring = none) :
    exec .admissionTake s = settle (State.handleReply { s with holding := none } r) := by
  change execAdmissionTake s = _
  simp only [execAdmissionTake, hfull, admissionHeld_eq_false hfree, Bool.false_eq_true, if_false]

theorem handleReply_idle {n : Node} (hactive : s.nodes[n].state = .active) :
    s.handleReply ⟨n, .poll, .idle⟩ = .ok (s.setNode n { s.nodes[n] with faults := 0 }) :=
  congrArg Except.ok (if_pos (decide_eq_true hactive))

/-- An IDLE or EVENT of a PROBE slot, or of a node that is not ACTIVE, is passed over (R122). -/
theorem handleReply_passes {r : ReplyRecord} (hhello : ∀ d, r.reply ≠ .hello d)
    (h : r.slot = .probe ∨ s.nodes[r.node].state ≠ .active) : s.handleReply r = .ok s := by
  obtain ⟨n, slot, reply⟩ := r
  cases reply with
  | hello d => exact absurd rfl (hhello d)
  | idle =>
    cases slot with
    | probe => rfl
    | poll => exact congrArg Except.ok (if_neg (ne_true_of_eq_false (isActive_eq_false.mpr (h.resolve_left (by simp)))))
  | event seq more kind line payload =>
    cases slot with
    | probe => rfl
    | poll => exact if_neg (ne_true_of_eq_false (isActive_eq_false.mpr (h.resolve_left (by simp))))

section
variable {n : Node} {seq : Seq} {more : Bool} {kind : EventKind} {line : Line} {payload : List Byte}

theorem handleReply_event (hactive : s.nodes[n].state = .active) :
    s.handleReply ⟨n, .poll, .event seq more kind line payload⟩ = s.judgeEvent n seq more kind line payload :=
  if_pos (decide_eq_true hactive)

/-! ## The sequence number -/

/-- R117: MORE arms the flag, unless the burst is spent. -/
theorem arm_eq (b : BurstFlag) (n : Node) (more : Bool) :
    b.arm n more = if more = true ∧ b ≠ .spent then .armed n else b := by
  cases more with
  | false => rfl
  | true => cases b <;> simp [BurstFlag.arm]

theorem judgeEvent_expected :
    s.judgeEvent n s.nodes[n].expected more kind line payload =
      s.decideEvent n s.nodes[n].expected more kind line payload :=
  if_pos rfl

section
variable (hseq : seq ≠ s.nodes[n].expected)
include hseq

theorem judgeEvent_duplicate (hprevious : seq = s.nodes[n].expected - 1) (hack : s.nodes[n].ackValid = true) :
    s.judgeEvent n seq more kind line payload = .ok { s with
      nodes := s.nodes.set n { s.nodes[n] with faults := 0 }
      burst := if more = true ∧ s.burst ≠ .spent then .armed n else s.burst } := by
  rw [← arm_eq]
  exact (if_neg hseq).trans (if_pos ⟨hprevious, hack⟩)

theorem judgeEvent_fault (h : seq ≠ s.nodes[n].expected - 1 ∨ s.nodes[n].ackValid = false) :
    s.judgeEvent n seq more kind line payload = s.sequenceFault n (Config.faultPostedAtLoss s.freeCount) :=
  (if_neg hseq).trans (if_neg fun ⟨hprevious, hack⟩ =>
    h.elim (absurd hprevious) fun hnone => Bool.false_ne_true (hnone.symm.trans hack))

end

end

/-! ## A sequence fault -/

/-- The state in which a sequence fault of node `n` posts PROTOCOL_FAULT: the fault counted, and, when it loses the node, the
free value used (R123, R125, log entry 25). -/
def State.faultCounted (s : State) (n : Node) : State :=
  if s.faultLimit ≤ s.nodes[n].faults + 1 then
    { s.loseNode n (s.nodes[n].faults + 1) with freeCount := s.freeCount + 1 }
  else s.setNode n { s.nodes[n] with faults := s.nodes[n].faults + 1 }

section
variable {n : Node}

theorem sequenceFault_eq {atOnce waits : Bool} (hactive : s.nodes[n].state = .active)
    (hwaits : waits = true ↔ s.faultLimit ≤ s.nodes[n].faults + 1 ∧ atOnce = false) :
    s.sequenceFault n atOnce =
      if waits then .ok ((s.faultCounted n).raise (.protocolFault n))
      else (s.faultCounted n).postCondition (.protocolFault n) := by
  rw [sequenceFault_active atOnce hactive, State.faultCounted]
  by_cases hlimit : s.faultLimit ≤ s.nodes[n].faults + 1
  · obtain rfl : waits = !atOnce := Bool.eq_iff_iff.mpr (hwaits.trans (by simp only [hlimit, true_and, Bool.not_eq_true']))
    simp only [if_pos hlimit]
    cases atOnce <;> rfl
  · obtain rfl : waits = false := eq_false_of_ne_true fun h => hlimit (hwaits.mp h).1
    simp only [if_neg hlimit, Bool.false_eq_true, if_false]

theorem faultCounted_eq (s : State) (n : Node) :
    s.faultCounted n =
      if s.faultLimit ≤ s.nodes[n].faults + 1 then { s with
        table := (s.faultCounted n).table, raised := s.raised ++ [.nodeLost n], freeCount := s.freeCount + 1
        nodes := s.nodes.set n { s.nodes[n] with state := .lost, admittedLimit := 0, faults := s.nodes[n].faults + 1 }
        stack := s.stack.map fun e =>
          if e.entry.source = n.castSucc then { e with entry := { e.entry with stale := true } } else e
        queue := s.queue.filter fun g => !decide (g.dest = n ∧ g.body.kind = .done) }
      else { s with nodes := s.nodes.set n { s.nodes[n] with faults := s.nodes[n].faults + 1 } } := by
  unfold State.faultCounted
  split
  · rw [loseNode_eq, dismissWork_stack, dismissWork_queue]
  · rfl

theorem faultCounted_table (s : State) (n : Node) (i : Fin 32) :
    (s.faultCounted n).table[i] = s.table[i].bind fun e =>
      if s.faultLimit ≤ s.nodes[n].faults + 1 ∧ e.source = n.castSucc then
        (if e.kind = .edge then some { e with stale := true } else none) else some e := by
  unfold State.faultCounted
  split
  next hlimit =>
    rw [loseNode_eq]
    simpa only [hlimit, true_and] using dismissWork_table s n i
  next hlimit =>
    simp only [hlimit, false_and, if_false, Option.bind_fun_some]
    rfl

theorem faultCounted_lineMap (s : State) (n : Node) : (s.faultCounted n).lineMap = s.lineMap := by
  rw [faultCounted_eq]
  split <;> rfl

theorem faultCounted_linesUnique (n : Node) (hlines : s.LinesUnique) : (s.faultCounted n).LinesUnique := by
  unfold State.faultCounted
  split
  · rw [loseNode_eq]
    exact dismissWork_linesUnique n hlines
  · exact hlines

/-- A sequence fault is counted, and its PROTOCOL_FAULT waits or is posted with the node's bit alone (R125, R146). -/
theorem admissionTake_sequenceFault {seq : Seq} {more waits : Bool} {kind : EventKind} {line : Line} {payload : List Byte}
    {b0 b1 : Byte} (hfull : s.holding = some ⟨n, .poll, .event seq more kind line payload⟩) (hfree : s.retiring = none)
    (hactive : s.nodes[n].state = .active) (hseq : seq ≠ s.nodes[n].expected)
    (h : seq ≠ s.nodes[n].expected - 1 ∨ s.nodes[n].ackValid = false)
    (hwaits : waits = true ↔
      s.faultLimit ≤ s.nodes[n].faults + 1 ∧ Config.faultPostedAtLoss s.freeCount = false)
    (hbits : ∀ k : Nat, k < 8 → (b0.getLsbD k = true ↔ n.val = k) ∧ (b1.getLsbD k = true ↔ n.val = 8 + k)) :
    exec .admissionTake s = settle
      (if waits then .ok ((State.faultCounted { s with holding := none } n).raise (.protocolFault n))
        else (State.faultCounted { s with holding := none } n).post 4 [b0, b1]) := by
  rw [exec_admissionTake hfull hfree, handleReply_event (s := { s with holding := none }) hactive,
    judgeEvent_fault (s := { s with holding := none }) hseq h,
    sequenceFault_eq (s := { s with holding := none }) hactive hwaits, ← nodeSet_eq hbits]
  rfl

end

end

/-- Settles O55: the reply by its slot, its node's state and its sequence number, and a sequence fault by what the posting of
PROTOCOL_FAULT finds. -/
theorem repliesThatReachNoDecision : Obligations.RepliesThatReachNoDecision := by
  rintro s ⟨_, slot, reply⟩ n r hfull hfree rfl rfl
  refine ⟨?_, fun hhello h => ?_, ?_⟩
  · rintro rfl rfl hactive
    rw [exec_admissionTake hfull hfree, handleReply_idle (s := { s with holding := none }) hactive]
    rfl
  · rw [exec_admissionTake hfull hfree, handleReply_passes (s := { s with holding := none }) hhello h]
    rfl
  rintro seq more kind line payload rfl rfl hactive hseq
  refine ⟨fun hprevious hack => ?_, fun h => ?_⟩
  · rw [exec_admissionTake hfull hfree, handleReply_event (s := { s with holding := none }) hactive,
      judgeEvent_duplicate (s := { s with holding := none }) hseq hprevious hack]
    rfl
  refine ⟨(State.faultCounted { s with holding := none } n).table, faultCounted_table { s with holding := none } n, ?_⟩
  intro base waits b0 b1 hwaits hbase hbits
  replace hbase := hbase.trans (faultCounted_eq { s with holding := none } n).symm
  rw [admissionTake_sequenceFault hfull hfree hactive hseq h hwaits hbits, ← hbase]
  have hmap : base.lineMap = s.lineMap := hbase ▸ faultCounted_lineMap { s with holding := none } n
  rw [← hmap]
  refine ⟨fun hdisabled => ?_, fun henabled hlines i e p0 p1 he hsource hline hpayload => ?_,
    fun henabled hnone i t hplace => ?_⟩
  · have hdropped : base.post 4 [b0, b1] = .ok base := post_disabled hdisabled
    rw [hdropped]
    cases waits <;> rfl
  · have hunique : base.LinesUnique := hbase ▸ faultCounted_linesUnique n hlines
    rw [post_merges henabled hunique he hsource hline, hpayload]
    cases waits <;> rfl
  · rw [post_inserts henabled hnone hplace]
    cases waits <;> rfl

end Sys2Proof.Machine
end

section
/-! SUPPORT. The decision table (R124): the row of an EVENT by its conditions, and the state that an accepted or refused frame
leaves (R123). -/

namespace Sys2Proof.Machine

/-! ## What the rows ask -/

theorem suits_iff {kind : EventKind} {k : Kind} : kind.suits k = true ↔ (kind = .pulse ↔ k = .edge) := by
  cases kind <;> cases k <;> decide

section
variable {s : State}

theorem hasCapacity_iff {n : Node} :
    s.hasCapacity n = true ↔ s.poolCount < 24 ∧ s.heldCredits n < s.nodes[n].admittedLimit.val := by
  rw [State.hasCapacity, Bool.and_eq_true, decide_eq_true_iff, decide_eq_true_iff]
  rfl

theorem queueFull_iff : s.queueFull = true ↔ 16 ≤ s.queue.length := decide_eq_true_iff

theorem freshPending_isSome {src : Source} {line : Line} :
    (s.freshPending src line).isSome = true ↔
      ∃ e ∈ s.pendingEntries, e.source = src ∧ e.line = line ∧ e.stale = false := by
  simp [State.freshPending, findPending_isSome, on_iff, and_assoc]

theorem freshPending_eq_none {src : Source} {line : Line}
    (h : ∀ e ∈ s.pendingEntries, e.source = src → e.line = line → e.stale = true) : s.freshPending src line = none := by
  rw [← Option.not_isSome_iff_eq_none, freshPending_isSome]
  rintro ⟨e, he, hsource, hline, hfresh⟩
  exact Bool.false_ne_true (hfresh.symm.trans (h e he hsource hline))

theorem freshPending_self (hlines : s.LinesUnique) {i : Fin 32} {e : Entry} (he : s.table[i] = some e)
    (hfresh : e.stale = false) : s.freshPending e.source e.line = some (i, e) := by
  refine findPending_eq_some he (by simp [Entry.on, hfresh]) fun j f hf hfound => ?_
  obtain ⟨hon, -⟩ := Bool.and_eq_true_iff.mp hfound
  obtain ⟨hsource, hline⟩ := on_iff.mp hon
  exact slot_unique hlines he hf hsource.symm hline.symm

/-- R5: an ASSERT is blocked by an entry of its line in service that is neither stale nor released. -/
theorem holdsLine_any {src : Source} {line : Line} :
    s.stack.any (·.holdsLine src line) = true ↔
      ∃ e ∈ s.stack, e.entry.source = src ∧ e.entry.line = line ∧ e.entry.stale = false ∧ e.released = false := by
  simp [StackEntry.holdsLine, on_iff, and_assoc]

/-- R73: a RELEASE asks for a HELD entry of its line in service whose condition still holds. -/
theorem holdsHeld_iff {e : StackEntry} {src : Source} {line : Line} :
    (e.holdsLine src line && decide (e.entry.kind = .held)) = true ↔
      e.entry.source = src ∧ e.entry.line = line ∧ e.Holding := by
  simp [StackEntry.holdsLine, StackEntry.Holding, on_iff, and_assoc, and_comm, and_left_comm]

theorem markReleased_middle {src : Source} {line : Line} {below above : List StackEntry} {x : StackEntry}
    (hx : x.entry.source = src ∧ x.entry.line = line ∧ x.Holding)
    (hbelow : ∀ y ∈ below, ¬ (y.entry.source = src ∧ y.entry.line = line ∧ y.Holding)) :
    markReleased src line (below ++ x :: above) = below ++ { x with released := true } :: above := by
  induction below with
  | nil => exact if_pos (holdsHeld_iff.mpr hx)
  | cons y below ih =>
    obtain ⟨hy, hbelow⟩ := List.forall_mem_cons.mp hbelow
    exact (if_neg (mt holdsHeld_iff.mp hy)).trans (congrArg (y :: ·) (ih hbelow))

end

/-! ## The row of an EVENT -/

section
variable {s : State} {n : Node} {kind : EventKind} {line : Line}

theorem eventRow_undeclared (h : s.nodes[n].declared.val ≤ line.val) : s.eventRow n kind line = .row1a :=
  if_pos h

section
variable (hdeclared : line.val < s.nodes[n].declared.val)
include hdeclared

theorem eventRow_unsuited (h : ¬ kind.suits s.lineMap[n.castSucc][line].kind = true) : s.eventRow n kind line = .row1b :=
  (if_neg (not_le.mpr hdeclared)).trans 
    (if_pos ((Bool.not_eq_true' _).mpr (eq_false_of_ne_true h)))

section
variable (hsuits : kind.suits s.lineMap[n.castSucc][line].kind = true)
include hsuits

theorem eventRow_suited :
    s.eventRow n kind line =
      if kind = .release then s.releaseRow n line
      else if s.lineMap[n.castSucc][line].enable = true then
        (if kind = .pulse then s.pulseRow n line else s.assertRow n line)
      else .row4 := by
  refine (if_neg (not_le.mpr hdeclared)).trans ((if_neg fun hnot => ?_).trans ?_)
  · exact Bool.false_ne_true (((Bool.not_eq_true' _).mp hnot).symm.trans hsuits)
  · cases kind <;> rfl

end

end

/-! ## Acceptance and refusal -/

/-- The record and the burst flag of an accepted frame at the expected sequence (R117, R123). -/
def State.accepted (s : State) (n : Node) (more newEntry : Bool) : State :=
  { s with
    nodes := s.nodes.set n { s.nodes[n] with
      expected := s.nodes[n].expected + 1, lastAck := s.nodes[n].expected, ackValid := true, newEntry, faults := 0 }
    burst := if more = true ∧ s.burst ≠ .spent then .armed n else s.burst }

variable {t : State} {row : EventRow} {more newEntry : Bool} {payload : List Byte}

/-- No row of the decision table writes a node record (R124). -/
theorem applyRow_nodes (happly : s.applyRow row n line payload = .ok t) : t.nodes = s.nodes := by
  unfold State.applyRow at happly
  split at happly
  case h_2 | h_3 =>
    obtain ⟨_, _, -, -, rfl⟩ := insertEntry_ok happly
    rfl
  all_goals
    cases happly
    rfl

section
variable (hrow : s.eventRow n kind line = row) (happly : s.applyRow row n line payload = .ok t)
include hrow happly

theorem decideEvent_accepts (haccepts : row.accepts = some newEntry) :
    s.decideEvent n s.nodes[n].expected more kind line payload =
      .ok (if row.raisesFault then (t.accepted n more newEntry).raise (.protocolFault n)
        else t.accepted n more newEntry) := by
  have hnodes := applyRow_nodes happly
  simp only [State.decideEvent, hrow, happly, haccepts, arm_eq, State.accepted, ← hnodes]
  rfl

theorem decideEvent_refuses (hrefuses : row.accepts = none) :
    s.decideEvent n s.nodes[n].expected more kind line payload =
      .ok (t.setNode n { t.nodes[n] with faults := 0 }) := by
  simp only [State.decideEvent, hrow, happly, hrefuses]
  rfl

end

end

/-! ## The take of an EVENT -/

section
variable {s t : State} {n : Node} {kind : EventKind} {line : Line} {row : EventRow} {more newEntry : Bool}
  {payload : List Byte}
  (hfull : s.holding = some ⟨n, .poll, .event s.nodes[n].expected more kind line payload⟩) (hfree : s.retiring = none)
  (hactive : s.nodes[n].state = .active) (hrow : s.eventRow n kind line = row)
  (happly : State.applyRow { s with holding := none } row n line payload = .ok t)
include hfull hfree hactive

theorem admissionTake_decides :
    exec .admissionTake s =
      settle (State.decideEvent { s with holding := none } n s.nodes[n].expected more kind line payload) := by
  rw [exec_admissionTake hfull hfree, handleReply_event (s := { s with holding := none }) hactive]
  exact congrArg settle judgeEvent_expected

include hrow happly

theorem admissionTake_accepts (haccepts : row.accepts = some newEntry) (hquiet : row.raisesFault = false) :
    exec .admissionTake s = .next (t.accepted n more newEntry) := by
  rw [admissionTake_decides hfull hfree hactive]
  refine (congrArg settle (decideEvent_accepts (s := { s with holding := none }) hrow happly haccepts)).trans ?_
  rw [hquiet]
  rfl

theorem admissionTake_faults (haccepts : row.accepts = some newEntry) (hraises : row.raisesFault = true) :
    exec .admissionTake s = .next ((t.accepted n more newEntry).raise (.protocolFault n)) := by
  rw [admissionTake_decides hfull hfree hactive]
  refine (congrArg settle (decideEvent_accepts (s := { s with holding := none }) hrow happly haccepts)).trans ?_
  rw [hraises]
  rfl

theorem admissionTake_refuses (hrefuses : row.accepts = none) :
    exec .admissionTake s = .next (t.setNode n { t.nodes[n] with faults := 0 }) := by
  rw [admissionTake_decides hfull hfree hactive]
  exact congrArg settle (decideEvent_refuses (s := { s with holding := none }) hrow happly hrefuses)

end

/-! ## The rows by their conditions -/

section
variable {s : State} {n : Node} {line : Line}

theorem eventRow_mem_faults {kind : EventKind}
    (h : ¬ line.val < s.nodes[n].declared.val ∨ ¬ kind.suits s.lineMap[n.castSucc][line].kind = true ∨
      (kind = .assert ∧ s.lineMap[n.castSucc][line].enable = true ∧
        ((s.freshPending n.castSucc line).isSome = true ∨ s.stack.any (·.holdsLine n.castSucc line) = true))) :
    s.eventRow n kind line ∈ [EventRow.row1a, .row1b, .row3a] := by
  by_cases hdeclared : line.val < s.nodes[n].declared.val
  · by_cases hsuits : kind.suits s.lineMap[n.castSucc][line].kind = true
    · obtain ⟨rfl, henabled, hblocked⟩ := (h.resolve_left (absurd hdeclared)).resolve_left (absurd hsuits)
      have hrow : s.assertRow n line = .row3a := if_pos (Bool.or_eq_true_iff.mpr hblocked)
      rw [eventRow_suited hdeclared hsuits, if_neg (by decide), if_pos henabled, if_neg (by decide), hrow]
      decide
    · rw [eventRow_unsuited hdeclared hsuits]
      decide
  · rw [eventRow_undeclared (not_lt.mp hdeclared)]
    decide

variable (hdeclared : line.val < s.nodes[n].declared.val)
include hdeclared

theorem eventRow_disabled {kind : EventKind} (hsuits : kind.suits s.lineMap[n.castSucc][line].kind = true)
    (hkind : kind = .pulse ∨ kind = .assert) (hdisabled : s.lineMap[n.castSucc][line].enable = false) :
    s.eventRow n kind line = .row4 := by
  have hrelease : kind ≠ .release := by rcases hkind with rfl | rfl <;> decide
  rw [eventRow_suited hdeclared hsuits, if_neg hrelease, if_neg (ne_true_of_eq_false hdisabled)]

section
variable (hsuits : EventKind.pulse.suits s.lineMap[n.castSucc][line].kind = true)
  (henabled : s.lineMap[n.castSucc][line].enable = true)
include hsuits henabled

theorem eventRow_pulse : s.eventRow n .pulse line = s.pulseRow n line := by
  rw [eventRow_suited hdeclared hsuits, if_neg (by decide), if_pos henabled, if_pos rfl]

theorem eventRow_merge {i : Fin 32} {e : Entry} (hpending : s.pendingOn n.castSucc line = some (i, e)) :
    s.eventRow n .pulse line = .row2a i e := by
  rw [eventRow_pulse hdeclared hsuits henabled, State.pulseRow, Node.source, hpending]

theorem eventRow_newPulse (hnone : ∀ e ∈ s.pendingEntries, ¬ (e.source = n.castSucc ∧ e.line = line)) :
    s.eventRow n .pulse line = if s.hasCapacity n then .row2b else .row2c := by
  rw [eventRow_pulse hdeclared hsuits henabled, State.pulseRow, Node.source, pendingOn_eq_none hnone]

end

theorem eventRow_newAssert (hsuits : EventKind.assert.suits s.lineMap[n.castSucc][line].kind = true)
    (henabled : s.lineMap[n.castSucc][line].enable = true) (hnone : ¬ (s.freshPending n.castSucc line).isSome = true)
    (hholds : ¬ s.stack.any (·.holdsLine n.castSucc line) = true) :
    s.eventRow n .assert line = if s.hasCapacity n then .row3b else .row3c := by
  rw [eventRow_suited hdeclared hsuits, if_neg (by decide), if_pos henabled, if_neg (by decide)]
  exact if_neg fun hblocked => (Bool.or_eq_true_iff.mp hblocked).elim hnone hholds

section
variable (hsuits : EventKind.release.suits s.lineMap[n.castSucc][line].kind = true)
include hsuits

theorem eventRow_withdrawal {i : Fin 32} {e : Entry} (hfresh : s.freshPending n.castSucc line = some (i, e)) :
    s.eventRow n .release line = if s.queueFull then .row5b else .row5a i e := by
  rw [eventRow_suited hdeclared hsuits, if_pos rfl, State.releaseRow, Node.source, hfresh]

theorem eventRow_release (hnone : s.freshPending n.castSucc line = none) :
    s.eventRow n .release line =
      if s.stack.any fun e => e.holdsLine n.castSucc line && decide (e.entry.kind = .held) then .row5c else .row5d := by
  rw [eventRow_suited hdeclared hsuits, if_pos rfl, State.releaseRow, Node.source, hnone]

end

end

/-! ## The statements -/

/-- Settles O56: the row by its condition, and what its acceptance or refusal leaves. -/
theorem eventsWithoutEffectOnTheTables : Obligations.EventsWithoutEffectOnTheTables := by
  rintro s n r more kind line payload c declared suits fresh stale holds capacity accepted refused hfull hfree rfl hactive
    rfl hdeclared hsuits hfresh hstale hholds hcapacity rfl rfl
  rw [← suits_iff] at hsuits
  rw [← freshPending_isSome] at hfresh
  rw [← holdsLine_any] at hholds
  rw [← hasCapacity_iff] at hcapacity
  refine ⟨fun h => ?_, fun hd hs => ?_⟩
  · rw [hdeclared, hsuits, hfresh, hholds] at h
    have hrow := eventRow_mem_faults h
    simp only [List.mem_cons, List.not_mem_nil, or_false] at hrow
    rcases hrow with hrow | hrow | hrow
    all_goals exact admissionTake_faults hfull hfree hactive hrow rfl rfl rfl
  replace hd := hdeclared.mp hd
  replace hs := hsuits.mp hs
  refine ⟨fun hkind hdisabled => ?_, ?_, ?_, ?_, ?_⟩
  · exact admissionTake_accepts hfull hfree hactive (eventRow_disabled hd hs hkind hdisabled) rfl rfl rfl
  · rintro rfl hnone hended
    have hrow : s.eventRow n .release line = .row5d := by
      rw [eventRow_release hd hs (Option.not_isSome_iff_eq_none.mp (mt hfresh.mpr hnone)), if_neg]
      rw [List.any_eq_true]
      rintro ⟨e, he, hheld⟩
      obtain ⟨hsource, hline, hkind, hfresh, hkept⟩ := holdsHeld_iff.mp hheld
      simpa [hfresh, hkept] using hended e he hsource hline hkind
    exact admissionTake_accepts hfull hfree hactive hrow rfl rfl rfl
  · rintro rfl henabled hnone hnoStale hfullPool
    have hrow : s.eventRow n .pulse line = .row2c := by
      rw [eventRow_newPulse hd hs henabled, if_neg (mt hcapacity.mpr hfullPool)]
      rintro e he ⟨hsource, hline⟩
      cases hmark : e.stale with
      | true => exact hnoStale (hstale.mpr ⟨e, he, hsource, hline, hmark⟩)
      | false => exact hnone (hfresh.mpr (freshPending_isSome.mpr ⟨e, he, hsource, hline, hmark⟩))
    exact admissionTake_refuses hfull hfree hactive hrow rfl rfl
  · rintro rfl henabled hnone hnoHold hfullPool
    have hrow : s.eventRow n .assert line = .row3c := by
      rw [eventRow_newAssert hd hs henabled (mt hfresh.mpr hnone) (mt hholds.mpr hnoHold),
        if_neg (mt hcapacity.mpr hfullPool)]
    exact admissionTake_refuses hfull hfree hactive hrow rfl rfl
  · rintro rfl hpending hqueue
    obtain ⟨⟨i, e⟩, hfound⟩ := Option.isSome_iff_exists.mp (hfresh.mp hpending)
    have hrow : s.eventRow n .release line = .row5b := by
      rw [eventRow_withdrawal hd hs hfound, if_pos (queueFull_iff.mpr hqueue)]
    exact admissionTake_refuses hfull hfree hactive hrow rfl rfl

/-- Settles O57: the row by its condition, and what its effect on the tables leaves. -/
theorem eventsChangeTheTables : Obligations.EventsChangeTheTables := by
  rintro s n r more kind line payload c accepted hfull hfree rfl hactive rfl hdeclared hsuits hlines rfl
  rw [← suits_iff] at hsuits
  refine ⟨?_, ?_, ?_, ?_⟩
  · rintro i e rfl henabled he hsource rfl
    have hrow := eventRow_merge hdeclared hsuits henabled (hsource ▸ pendingOn_self hlines he)
    exact admissionTake_accepts hfull hfree hactive hrow rfl rfl rfl
  · intro i t henabled hplace hpool hcredits hnew
    have hcapacity : s.hasCapacity n = true := hasCapacity_iff.mpr ⟨hpool, hcredits⟩
    have hinsert := insertEntry_nextPlace (s := { s with holding := none }) hplace n.castSucc line
      s.lineMap[n.castSucc][line].kind payload false
    rcases hnew with ⟨rfl, hnone⟩ | ⟨rfl, hstale, hended⟩
    · have hrow : s.eventRow n .pulse line = .row2b := by
        rw [eventRow_newPulse hdeclared hsuits henabled hnone, if_pos hcapacity]
      exact admissionTake_accepts hfull hfree hactive hrow hinsert rfl rfl
    · have hrow : s.eventRow n .assert line = .row3b := by
        rw [eventRow_newAssert hdeclared hsuits henabled (by simp [freshPending_eq_none hstale]), if_pos hcapacity]
        rw [holdsLine_any]
        rintro ⟨e, he, hsource, hline, hfresh, hkept⟩
        simpa [hfresh, hkept] using hended e he hsource hline
      exact admissionTake_accepts hfull hfree hactive hrow hinsert rfl rfl
  · rintro i e rfl he hsource rfl hfresh hroom
    have hrow : s.eventRow n .release e.line = .row5a i e := by
      rw [eventRow_withdrawal hdeclared hsuits (hsource ▸ freshPending_self hlines he hfresh),
        if_neg (mt queueFull_iff.mp (not_le.mpr hroom))]
    exact admissionTake_accepts hfull hfree hactive hrow rfl rfl rfl
  · rintro below above x rfl hstale hstack hsource hline hholding hbelow
    have hrow : s.eventRow n .release line = .row5c := by
      rw [eventRow_release hdeclared hsuits (freshPending_eq_none hstale), if_pos]
      exact List.any_eq_true.mpr ⟨x, by simp [hstack], holdsHeld_iff.mpr ⟨hsource, hline, hholding⟩⟩
    have hmark : markReleased n.castSucc line s.stack = below ++ { x with released := true } :: above :=
      hstack ▸ markReleased_middle ⟨hsource, hline, hholding⟩ hbelow
    rw [admissionTake_accepts hfull hfree hactive hrow rfl rfl rfl, ← hmark]
    rfl

end Sys2Proof.Machine
end

section
/-! SUPPORT. Nodes and the link in the registers (R140 to R142, R166): the node a byte names, the fields that SET_NODE supplies,
the report of a record, and the ranges of SET_LINK. -/

namespace Sys2Proof.Machine

theorem nodeOfByte_eq_some {b : Byte} {n : Node} (h : b.toNat = n.val) : nodeOfByte b = some n := by
  have hlt : b.toNat < 15 := h ▸ n.isLt
  rw [nodeOfByte, dif_pos hlt]
  simp only [h]

theorem nodeOfByte_eq_none {b : Byte} (h : 15 ≤ b.toNat) : nodeOfByte b = none :=
  dif_neg (not_lt.mpr h)

/-! ## SET_NODE -/

/-- The configured limit is the low three bits of ARG1 (R166). -/
theorem limitOfArg_eq (arg1 : Byte) : limitOfArg arg1 = Fin.ofNat 8 (arg1.toNat % 8) := by
  rw [limitOfArg, bits, Nat.pow_zero, Nat.div_one]
  rfl

theorem limitOfArg_eq_zero_iff {arg1 : Byte} : limitOfArg arg1 = 0 ↔ arg1.toNat % 8 = 0 := by
  simp [limitOfArg_eq, Fin.ext_iff]

/-- Settles O30: the node byte, then the limit, then the write of the two fields. -/
theorem setNodeWritesTwoFields : Obligations.SetNodeWritesTwoFields := by
  intro s hidle
  have htaken : exec .setNode s = _ := taken_idle hidle
  rw [htaken]
  refine ⟨fun h => ?_, fun n hn hlimit => ?_⟩
  · cases hnode : nodeOfByte s.arg0 with
    | none => rfl
    | some n =>
      have hin : ¬ 15 ≤ s.arg0.toNat := fun hout => by simp [nodeOfByte_eq_none hout] at hnode
      exact if_pos (limitOfArg_eq_zero_iff.mpr (h.resolve_left hin))
  · rw [nodeOfByte_eq_some hn, ← limitOfArg_eq]
    exact if_neg (mt limitOfArg_eq_zero_iff.mp hlimit)

/-! ## GET_NODE -/

section
variable (r : NodeRecord)

theorem NodeRecord.byte0_eq : r.byte0 = BitVec.ofNat 8 (16 * r.declared.val + 8 * r.join.toNat + r.state.code) := by
  refine congrArg (BitVec.ofNat 8) ?_
  simp only [flag, field]
  omega

theorem NodeRecord.byte1_eq :
    r.byte1 =
      BitVec.ofNat 8 (128 * r.newEntry.toNat + 64 * r.ackValid.toNat + 8 * r.lastAck.val + r.expected.val) := by
  refine congrArg (BitVec.ofNat 8) ?_
  simp only [flag, field]
  omega

theorem NodeRecord.byte2_eq : r.byte2 = BitVec.ofNat 8 (16 * r.configLimit.val + r.admittedLimit.val) := by
  refine congrArg (BitVec.ofNat 8) ?_
  simp only [field]
  omega

theorem NodeRecord.byte3_eq : r.byte3 = BitVec.ofNat 8 r.faults :=
  congrArg (BitVec.ofNat 8) (Nat.mul_one _)

end

/-- Settles O31: the four bytes of the report, and the code of the state as the statement lists it. -/
theorem getNodeReportsTheRecord : Obligations.GetNodeReportsTheRecord := by
  intro s
  refine ⟨taken_busy, fun hidle hrange => ?_, ?_⟩
  · simp only [exec, execGetNode, taken_idle hidle, nodeOfByte_eq_none hrange]
    rfl
  · rintro hidle n r k hn rfl hk
    have hcode : k = s.nodes[n].state.code := by
      revert hk
      cases s.nodes[n].state <;> exact id
    simp only [exec, execGetNode, taken_idle hidle, nodeOfByte_eq_some hn, hcode, NodeRecord.byte0_eq,
      NodeRecord.byte1_eq, NodeRecord.byte2_eq, NodeRecord.byte3_eq]

/-! ## SET_LINK -/

theorem linkArgsValid_iff {wait limit : Nat} :
    linkArgsValid wait limit = true ↔ 4 ≤ wait ∧ wait ≤ 31 ∧ 1 ≤ limit ∧ limit ≤ 7 := by
  simp only [linkArgsValid, Bool.and_eq_true, decide_eq_true_eq, and_assoc]

/-- Settles O32: the mode check, then the ranges of `linkArgsValid_iff`. -/
theorem setLinkWritesThreeParameters : Obligations.SetLinkWritesThreeParameters := by
  intro s hidle
  have htaken : exec .setLink s = _ := taken_idle hidle
  rw [htaken]
  refine ⟨fun hconfig hpaused => if_neg (not_or.mpr ⟨hconfig, hpaused⟩), fun hmode => ?_⟩
  rw [if_pos hmode]
  refine ⟨fun hout => if_neg ?_, fun hwait hwait' hlimit hlimit' =>
    if_pos (linkArgsValid_iff.mpr ⟨hwait, hwait', hlimit, hlimit'⟩)⟩
  rw [linkArgsValid_iff]
  omega

end Sys2Proof.Machine
end

section
/-! SUPPORT. The begin of RETIRE (R38, R138): its checks, and the state in which the walk starts. -/

namespace Sys2Proof.Machine

section
variable (s : State) (n : Node)

/-- R38: the pending entries of the node go stale, whatever their kind. -/
theorem beginRetire_table (i : Fin 32) :
    (s.beginRetire n).table[i] =
      s.table[i].map fun e => if e.source = n.castSucc then { e with stale := true } else e := by
  have hslot : (s.beginRetire n).table[i] = s.table[i].map fun e => if e.ofNode n then e.markStale else e := by
    rw [Option.map_eq_bind]
    exact mapSlots_getElem ..
  simp only [hslot, ofNode_iff, Entry.markStale]

/-- R38: the stack entries and the queued DONE frames of the node are dealt with as in a dismissal of its work, and the EJECT
follows what is left of the queue. -/
theorem beginRetire_eq :
    s.beginRetire n = { s with
      command := .retire n 0
      nodes := s.nodes.set n { s.nodes[n] with state := .leaving, join := false, admittedLimit := 0 }
      queue := (s.dismissWork n).queue ++ [⟨n, .eject⟩]
      stack := (s.dismissWork n).stack
      table := (s.beginRetire n).table } := by
  simp only [State.beginRetire, State.dismissWork, State.append, State.mapPending, State.markStacked,
    State.removeDones, State.setNode]

end

/-- Settles O41: the checks in the order of R138, and past them `beginRetire`. -/
theorem retireChecksAndBegins : Obligations.RetireChecksAndBegins := by
  intro s hidle
  have htaken : exec .retire s = _ := taken_idle hidle
  rw [htaken]
  refine ⟨fun hmode => if_pos hmode, fun hmode hrange => ?_, fun hmode n hn => ?_⟩
  · rw [if_neg hmode, nodeOfByte_eq_none hrange]
    rfl
  rw [if_neg hmode, nodeOfByte_eq_some hn]
  refine ⟨fun habsent => if_pos habsent, fun hpresent hfull => ?_, fun hpresent hroom => ?_⟩
  · exact (if_neg hpresent).trans (if_pos (queueFull_iff.mpr hfull))
  · refine ⟨(s.beginRetire n).table, ?_, beginRetire_table s n⟩
    refine (if_neg hpresent).trans ((if_neg (mt queueFull_iff.mp (not_le.mpr hroom))).trans ?_)
    rw [beginRetire_eq, dismissWork_queue, dismissWork_stack]

end Sys2Proof.Machine
end

section
/-! SUPPORT. HELLO (R132, R133, R137): what it does by the state and join setting of its node, and the state that the restart of
an ACTIVE node leaves. -/

namespace Sys2Proof.Machine

section
variable {s : State} {n : Node} {d : Fin 9}

/-! ## A node that is not ACTIVE -/

theorem hello_ignored
    (h : s.nodes[n].state = .joining ∨ s.nodes[n].state = .leaving ∨
      (s.nodes[n].state ≠ .active ∧ (s.nodes[n].join = false ∨ 16 ≤ s.queue.length))) :
    s.hello n d = s := by
  rcases h with hstate | hstate | ⟨hactive, hrefused⟩
  · rw [State.hello, hstate]
  · rw [State.hello, hstate]
  have hrequest : (if s.nodes[n].join then s.joinRequest n d else s) = s := by
    rcases hrefused with hjoin | hfull
    · exact if_neg (ne_true_of_eq_false hjoin)
    · rw [State.joinRequest, if_pos (queueFull_iff.mpr hfull), ite_self]
  unfold State.hello
  cases hstate : s.nodes[n].state with
  | absent | lost => exact hrequest
  | active => exact absurd hstate hactive
  | joining | leaving => rfl

theorem hello_joins (hstate : s.nodes[n].state = .absent ∨ s.nodes[n].state = .lost) (hjoin : s.nodes[n].join = true)
    (hroom : s.queue.length < 16) : s.hello n d = s.admitNode n d := by
  have hrequest : s.joinRequest n d = s.admitNode n d := if_neg (mt queueFull_iff.mp (not_le.mpr hroom))
  rcases hstate with hstate | hstate <;> simp only [State.hello, hstate, hjoin, hrequest, if_true]

/-! ## The restart of an ACTIVE node -/

theorem hello_restarts (hactive : s.nodes[n].state = .active) : s.hello n d = s.restartNode n d := by
  simp only [State.hello, hactive]

theorem setNode_getElem (r : NodeRecord) : (s.setNode n r).nodes[n] = r := Vector.getElem_set_self _

theorem setNode_setNode (r r' : NodeRecord) : (s.setNode n r).setNode n r' = s.setNode n r' := by
  simp only [State.setNode, Vector.set_set]

/-- An admission clears the sequence fields itself (R133). -/
theorem admitNode_cleared : (s.setNode n s.nodes[n].clearSequence).admitNode n d = s.admitNode n d := by
  simp only [State.admitNode, setNode_getElem, setNode_setNode]
  rfl

/-- R137: join and a free slot are judged once the DONE frames for the node have left the queue. -/
theorem restartNode_eq :
    s.restartNode n d =
      (if s.nodes[n].join = true ∧ (s.dismissWork n).queue.length < 16 then (s.dismissWork n).admitNode n d
      else (s.dismissWork n).setNode n
        { s.nodes[n].clearSequence with state := .lost, admittedLimit := 0 }).raise (.nodeRestarted n) := by
  have hadmitted : ((s.dismissWork n).setNode n s.nodes[n].clearSequence).admitNode n d =
      (s.dismissWork n).admitNode n d := admitNode_cleared
  have htest :
      (s.nodes[n].clearSequence.join &&
        !((s.dismissWork n).setNode n s.nodes[n].clearSequence).queueFull) = true ↔
      s.nodes[n].join = true ∧ (s.dismissWork n).queue.length < 16 := by
    rw [Bool.and_eq_true, Bool.not_eq_true', ← Bool.not_eq_true, queueFull_iff, not_le]
    rfl
  simp only [State.restartNode, setNode_getElem, setNode_setNode, htest, hadmitted]

theorem restartNode_admits (h : s.nodes[n].join = true ∧ (s.dismissWork n).queue.length < 16) :
    s.restartNode n d = { s with
      nodes := s.nodes.set n
        ⟨.joining, s.nodes[n].join, s.nodes[n].configLimit, s.nodes[n].configLimit, 0, 0, false, false, 0, d⟩
      queue := (s.dismissWork n).queue ++ [⟨n, .admitFrame s.nodes[n].configLimit⟩]
      table := (s.dismissWork n).table, stack := (s.dismissWork n).stack
      raised := s.raised ++ [.nodeRestarted n] } := by
  rw [restartNode_eq, if_pos h]
  simp only [State.admitNode, NodeRecord.clearSequence, State.append, State.setNode, State.raise, State.dismissWork,
    State.removeDones, State.markStacked, State.mapPending]

theorem restartNode_loses (h : ¬ (s.nodes[n].join = true ∧ (s.dismissWork n).queue.length < 16)) :
    s.restartNode n d = { s with
      nodes := s.nodes.set n
        ⟨.lost, s.nodes[n].join, s.nodes[n].configLimit, 0, 0, 0, false, false, 0, s.nodes[n].declared⟩
      queue := (s.dismissWork n).queue, table := (s.dismissWork n).table, stack := (s.dismissWork n).stack
      raised := s.raised ++ [.nodeRestarted n] } := by
  rw [restartNode_eq, if_neg h]
  simp only [NodeRecord.clearSequence, State.setNode, State.raise, State.dismissWork, State.removeDones,
    State.markStacked, State.mapPending]

end

/-- Settles O58: the HELLO by its node's state, and a restart by whether the node is admitted again. -/
theorem helloJoinsOrRestarts : Obligations.HelloJoinsOrRestarts := by
  rintro s n r slot d hfull hfree rfl
  have htake : exec .admissionTake s = .next (State.hello { s with holding := none } n d) :=
    exec_admissionTake hfull hfree
  rw [htake]
  refine ⟨fun h => ?_, fun hstate hjoin hroom => ?_, ?_⟩
  · rw [hello_ignored (s := { s with holding := none }) h]
  · rw [hello_joins (s := { s with holding := none }) hstate hjoin hroom, ← hjoin]
    rfl
  · rintro hactive q rfl
    refine ⟨(s.dismissWork n).table, ?_, dismissWork_table s n⟩
    rw [hello_restarts (s := { s with holding := none }) hactive, ← dismissWork_stack, ← dismissWork_queue]
    by_cases hadmitted : s.nodes[n].join = true ∧ (s.dismissWork n).queue.length < 16
    · rw [restartNode_admits (s := { s with holding := none }) hadmitted, if_pos hadmitted, if_pos hadmitted]
      rfl
    · rw [restartNode_loses (s := { s with holding := none }) hadmitted, if_neg hadmitted, if_neg hadmitted]
      rfl

end Sys2Proof.Machine
end

section
/-! SUPPORT. The end of STOP and of RETIRE (R39, R151, R160): what a posting reads of the state, the three happenings at which a
command ends, and the conditions posted before COMMAND_DONE. -/

namespace Sys2Proof.Machine

/-! ## Postings from states with the same tables -/

section
variable {s t u : State} {line : Line} {payload : List Byte}

/-- A posting reads the Line Map, the Pending Table, the stack and the last allocated tag only: from a state that has these
in common with `s` it writes the same table and the same tag. -/
theorem post_transfer (h : s.post line payload = .ok t)
    (hkept : (u.lineMap, u.table, u.stack, u.lastTag) = (s.lineMap, s.table, s.stack, s.lastTag)) :
    u.post line payload = .ok { u with table := t.table, lastTag := t.lastTag } := by
  simp only [Prod.mk.injEq] at hkept
  obtain ⟨hmap, htable, hstack, htag⟩ := hkept
  have hconfig : u.lineConfig localSource line = s.lineConfig localSource line := by simp only [State.lineConfig, hmap]
  have hpending : u.pendingOn localSource line = s.pendingOn localSource line := by
    simp only [State.pendingOn, State.findPending, htable]
  rcases post_ok h with ⟨hdisabled, rfl⟩ | ⟨i, e, henabled, hfound, rfl⟩ | ⟨henabled, hnone, hinsert⟩
  · rw [post_disabled (hconfig ▸ hdisabled), ← htable, ← htag]
  · simp only [State.post, hconfig, henabled, if_true, hpending, hfound, State.setSlot, htable, ← htag]
  · obtain ⟨i, tag, hslot, hnext, rfl⟩ := insertEntry_ok hinsert
    have hslot' : u.freeSlot = some i := by simpa only [State.freeSlot, htable] using hslot
    have hnext' : u.nextTag = some tag := by
      simpa only [State.nextTag, State.tagLive, State.pendingEntries, htable, hstack, htag] using hnext
    simp only [State.post, hconfig, henabled, if_true, hpending, hnone, State.insertEntry, hslot', hnext', State.setSlot,
      htable]

theorem settle_eq_next {x : Except Fault State} (h : settle x = .next t) : x = .ok t := by
  cases x with
  | ok s =>
    cases h
    rfl
  | error f => cases h

end

/-! ## The happenings that end a command -/

section
variable {s t : State}

theorem exec_stop_idle (hmode : s.mode = .run) (hcommand : s.command = .idle) (hlink : s.link = .idle) :
    exec .stop s = settle s.endStop := by
  change execStop s = _
  rw [execStop, taken_idle hcommand, if_pos hmode, if_neg (by simp [State.slotInFlight, hlink])]

theorem exec_guardEnd_stopping (hmode : s.mode = .stopping) (hlink : s.link = .guard) :
    exec .guardEnd s = settle (State.endStop { s with link := .idle, bitTimer := 0, txBuffer := none }) :=
  (if_pos hlink).trans (if_pos hmode)

theorem exec_retireWalkStep_last {n : Node} (hcommand : s.command = .retire n 31) :
    exec .retireWalkStep s = settle (s.purgeSlot n 31).endRetire := by
  change execRetireWalkStep s = _
  simp only [execRetireWalkStep, hcommand]
  rfl

/-- RETIRE ends with the posting of COMMAND_DONE (R39, R151). -/
theorem endRetire_ok (hpost : s.postCommandDone = .ok t) : s.endRetire = .ok { t with command := .idle, res := .ok } := by
  rw [State.endRetire, hpost]
  rfl

/-- With no condition waiting, STOP ends as a command does that ends in PAUSED (R151, R160). -/
theorem endStop_ok (hraised : s.raised = []) (hpost : State.postCommandDone { s with mode := .paused } = .ok t) :
    s.endStop = .ok { t with command := .idle, res := .ok } := by
  have hpost' : s.postCommandDone = .ok { s with table := t.table, lastTag := t.lastTag } := post_transfer hpost rfl
  rw [State.endStop, postRaised_nil hraised, post_frame hpost]
  exact congrArg (· >>= fun s => pure { s with mode := .paused, command := .idle, res := .ok }) hpost'

end

/-! ## The purge of a slot -/

/-- What removes entries of the Pending Table keeps lines unique (R22). -/
theorem linesUnique_of_kept {s t : State} (hkept : ∀ (i : Fin 32) (e : Entry), t.table[i] = some e → s.table[i] = some e)
    (hlines : s.LinesUnique) : t.LinesUnique := by
  refine List.pairwise_filterMap.mpr (List.pairwise_iff_getElem.mpr fun i j hi hj hlt e he f hf ⟨hsource, hline⟩ => ?_)
  have hi' : i < 32 := by simpa using hi
  have hj' : j < 32 := by simpa using hj
  have hsame : (⟨i, hi'⟩ : Fin 32) = ⟨j, hj'⟩ :=
    slot_unique hlines (hkept ⟨i, hi'⟩ e (by simpa using he)) (hkept ⟨j, hj'⟩ f (by simpa using hf)) hsource hline
  exact hlt.ne (congrArg Fin.val hsame)

theorem purgeSlot_linesUnique {s : State} (n : Node) (i : Fin 32) (hlines : s.LinesUnique) :
    (s.purgeSlot n i).LinesUnique := by
  refine linesUnique_of_kept (fun j e he => ?_) hlines
  rw [State.purgeSlot, State.setSlot_table] at he
  by_cases hij : i = j
  · subst hij
    exact (Option.filter_eq_some_iff.mp ((Vector.getElem_set_self _).symm.trans he)).1
  · exact (Vector.getElem_set_ne i.isLt j.isLt (Fin.val_ne_of_ne hij)).symm.trans he

theorem purgeSlot_eq (s : State) (n : Node) (i : Fin 32) :
    s.purgeSlot n i =
      { s with table := s.table.set i (s.table[i].filter fun e => decide (e.source ≠ n.castSucc)) } :=
  congrArg (fun p => s.setSlot i (s.table[i].filter p)) (funext fun _ => decide_not.symm)

/-- Settles O34: each of the three ends posts COMMAND_DONE from `base`, and the posting is disabled, a merge or an
insertion. -/
theorem endOfStopAndRetirePostsCommandDone : Obligations.EndOfStopAndRetirePostsCommandDone := by
  intro s base out hlines h
  obtain ⟨hmap, hunique, hend⟩ : base.lineMap = s.lineMap ∧ base.LinesUnique ∧
      ∀ t, base.postCommandDone = .ok t → out = .next { t with command := .idle, res := .ok } := by
    rcases h with ⟨hmode, hcommand, hlink, hraised, rfl, rfl⟩ | ⟨hmode, hlink, hraised, rfl, rfl⟩ | ⟨n, hcommand, rfl, hbase⟩
    · refine ⟨rfl, hlines, fun t hpost => ?_⟩
      rw [exec_stop_idle hmode hcommand hlink, endStop_ok hraised hpost]
      rfl
    · refine ⟨rfl, hlines, fun t hpost => ?_⟩
      rw [exec_guardEnd_stopping hmode hlink,
        endStop_ok (s := { s with link := .idle, bitTimer := 0, txBuffer := none }) hraised hpost]
      rfl
    · obtain rfl : base = s.purgeSlot n 31 := hbase.trans (purgeSlot_eq s n 31).symm
      refine ⟨rfl, purgeSlot_linesUnique n 31 hlines, fun t hpost => ?_⟩
      rw [exec_retireWalkStep_last hcommand, endRetire_ok hpost]
      rfl
  rw [← hmap]
  refine ⟨fun hdisabled => ?_, fun henabled i e he hsource hline hpayload => ?_, fun henabled hnone i t hplace => ?_⟩
  · exact hend base (post_disabled hdisabled)
  · refine (hend _ (post_merges henabled hunique he hsource hline)).trans ?_
    simp only [hpayload, List.zipWith_nil_left]
  · exact hend _ (post_inserts henabled hnone hplace)

/-! ## The conditions that wait at the end of STOP -/

/-- The posting of the oldest waiting condition by itself leaves the same end of STOP ahead (R151, log entry 5). -/
theorem endStop_oldest {s t : State} {c : LocalCondition} {rest : List LocalCondition} (hraised : s.raised = c :: rest)
    (hpost : State.postCondition { s with raised := rest } c = .ok t) : s.endStop = t.endStop := by
  have hfirst : State.postCondition { s with raised := [] } c = .ok { t with raised := [] } :=
    (post_transfer (u := { s with raised := [] }) hpost rfl).trans (by rw [post_frame hpost])
  have hrest : t.raised = rest := (congrArg State.raised (post_frame hpost)).trans rfl
  have hposted : s.postRaised = t.postRaised := by
    rw [State.postRaised, State.postRaised, hraised, hrest, List.foldlM_cons, hfirst]
    rfl
  rw [State.endStop, State.endStop, hposted]

/-- LOCAL_POSTING of the oldest waiting condition takes it and posts it (R144, R146). -/
theorem exec_localPosting_oldest {s : State} {c : LocalCondition} {rest : List LocalCondition}
    (hraised : s.raised = c :: rest) :
    exec (.localPosting c) s = settle (State.postCondition { s with raised := rest } c) := by
  change execLocalPosting c s = _
  rw [execLocalPosting, hraised, if_pos List.mem_cons_self, List.erase_cons_head]

/-- Settles O35: a posting touches the tables alone, so STOP ends from `t` as it does from `s`, with the link idle or at the
end of the guard. -/
theorem endOfStopPostsWaitingConditionsFirst : Obligations.EndOfStopPostsWaitingConditionsFirst := by
  intro s t c rest hraised hposting
  have hpost : State.postCondition { s with raised := rest } c = .ok t :=
    settle_eq_next ((exec_localPosting_oldest hraised).symm.trans hposting)
  have hframe := post_frame hpost
  have hmode : t.mode = s.mode := (congrArg State.mode hframe).trans rfl
  have hcommand : t.command = s.command := (congrArg State.command hframe).trans rfl
  have hlink : t.link = s.link := (congrArg State.link hframe).trans rfl
  refine ⟨fun hrun hidle hstill => ?_, fun hstopping hguard => ?_⟩
  · rw [exec_stop_idle hrun hidle hstill, endStop_oldest hraised hpost,
      exec_stop_idle (hmode.trans hrun) (hcommand.trans hidle) (hlink.trans hstill)]
  · have hidled : State.postCondition { s with link := .idle, bitTimer := 0, txBuffer := none, raised := rest } c =
        .ok { t with link := .idle, bitTimer := 0, txBuffer := none } :=
      (post_transfer (u := { s with link := .idle, bitTimer := 0, txBuffer := none, raised := rest }) hpost rfl).trans
        (by rw [hframe])
    rw [exec_guardEnd_stopping hstopping hguard,
      endStop_oldest (s := { s with link := .idle, bitTimer := 0, txBuffer := none }) hraised hidled,
      exec_guardEnd_stopping (hmode.trans hstopping) (hlink.trans hguard)]

end Sys2Proof.Machine
end

section
/-! SUPPORT. The mode (R158): what the operations on tables, node records and waiting conditions write, none of it the mode,
and the commands and happenings that write the mode. -/

namespace Sys2Proof.Machine

/-! ## What the operations on the tables write -/

/-- `s` with the Pending Table, the tags, the stack, the queue, the node records, the waiting conditions, the burst flag and the
count of free values of `t`. -/
def State.withTables (s t : State) : State :=
  { s with
    table := t.table, lastTag := t.lastTag, stack := t.stack, queue := t.queue, nodes := t.nodes, raised := t.raised
    burst := t.burst, freeCount := t.freeCount }

/-- From `s` to `t` nothing is written but what `State.withTables` takes over. -/
def State.WritesTables (s t : State) : Prop := t = s.withTables t

namespace State.WritesTables

variable {s t u : State}

theorem trans (hst : s.WritesTables t) (htu : t.WritesTables u) : s.WritesTables u :=
  calc u = t.withTables u := htu
    _ = (s.withTables t).withTables u := congrArg (withTables · u) hst
    _ = s.withTables u := rfl

theorem mode (h : s.WritesTables t) : t.mode = s.mode := (congrArg State.mode h).trans rfl

end State.WritesTables

section
variable {s t : State}

theorem post_writesTables {line : Line} {payload : List Byte} (h : s.post line payload = .ok t) : s.WritesTables t := by
  rw [post_frame h]
  exact rfl

theorem postAll_writesTables {cs : List LocalCondition} {s : State} (h : cs.foldlM State.postCondition s = .ok t) :
    s.WritesTables t := by
  induction cs generalizing s with
  | nil =>
    cases h
    exact rfl
  | cons c cs ih =>
    obtain ⟨u, hc, hcs⟩ := bind_ok h
    exact (post_writesTables hc).trans (ih hcs)

theorem insertEntry_writesTables {src : Source} {line : Line} {kind : Kind} {payload : List Byte} {repost : Bool}
    (h : s.insertEntry src line kind payload repost = .ok t) : s.WritesTables t := by
  obtain ⟨i, tag, -, -, rfl⟩ := insertEntry_ok h
  exact rfl

theorem notify_writesTables (e : Entry) (outcome : DoneOutcome) : s.WritesTables (s.notify e outcome) := by
  unfold State.notify
  split <;> exact rfl

theorem raise_writesTables (c : LocalCondition) : s.WritesTables (s.raise c) := rfl

theorem countFault_writesTables (n : Node) : s.WritesTables (s.countFault n) := by
  obtain ⟨_, _, _, _, _, h⟩ := countFault_frame s n
  rw [h]
  exact rfl

theorem slotFault_writesTables (n : Node) (slot : SlotKind) : s.WritesTables (s.slotFault n slot) := by
  cases slot with
  | poll => exact countFault_writesTables n
  | probe => exact rfl

theorem badFrame_writesTables (n : Node) (slot : SlotKind) : s.WritesTables (s.badFrame n slot) :=
  (raise_writesTables (.linkFault n)).trans (slotFault_writesTables n slot)

theorem reportTransmission_writesTables (f : TxFrame) : s.WritesTables (s.reportTransmission f) := by
  unfold State.reportTransmission
  cases f.kind with
  | admitFrame | eject =>
    dsimp only
    split <;> exact rfl
  | done | poll | probe => exact rfl

/-! ## Admission -/

theorem hello_writesTables (n : Node) (d : Fin 9) : s.WritesTables (s.hello n d) := by
  have hjoin : s.WritesTables (s.joinRequest n d) := by
    unfold State.joinRequest
    split <;> exact rfl
  have hrestart : s.WritesTables (s.restartNode n d) := by
    have hdismissed : s.WritesTables (s.dismissWork n) := dismissWork_frame s n
    rw [restartNode_eq]
    refine .trans (hdismissed.trans ?_) (raise_writesTables (.nodeRestarted n))
    split <;> exact rfl
  unfold State.hello
  cases s.nodes[n].state with
  | absent | lost =>
    dsimp only
    split
    · exact hjoin
    · exact rfl
  | active => exact hrestart
  | joining | leaving => exact rfl

theorem applyRow_writesTables {row : EventRow} {n : Node} {line : Line} {payload : List Byte}
    (h : s.applyRow row n line payload = .ok t) : s.WritesTables t := by
  cases row with
  | row2b | row3b => exact insertEntry_writesTables h
  | row1a | row1b | row2a | row2c | row3a | row3c | row4 | row5a | row5b | row5c | row5d =>
    cases h
    exact rfl

section
variable {n : Node} {seq : Seq} {more : Bool} {kind : EventKind} {line : Line} {payload : List Byte}

theorem decideEvent_writesTables (h : s.decideEvent n seq more kind line payload = .ok t) : s.WritesTables t := by
  obtain ⟨u, happly, h⟩ := bind_ok h
  refine (applyRow_writesTables happly).trans ?_
  split at h
  · cases h
    exact rfl
  · cases h
    split <;> exact rfl

theorem sequenceFault_writesTables {atOnce : Bool} (h : s.sequenceFault n atOnce = .ok t) : s.WritesTables t := by
  refine (countFault_writesTables n).trans ?_
  unfold State.sequenceFault at h
  dsimp only at h
  split at h
  · exact post_writesTables h
  · refine .trans (t := { s.countFault n with freeCount := s.freeCount + 1 }) rfl ?_
    split at h
    · exact post_writesTables h
    · cases h
      exact rfl

theorem judgeEvent_writesTables (h : s.judgeEvent n seq more kind line payload = .ok t) : s.WritesTables t := by
  unfold State.judgeEvent at h
  dsimp only at h
  split at h
  · exact decideEvent_writesTables h
  · split at h
    · cases h
      exact rfl
    · exact sequenceFault_writesTables h

end

theorem handleReply_writesTables {r : ReplyRecord} (h : s.handleReply r = .ok t) : s.WritesTables t := by
  unfold State.handleReply at h
  split at h
  case h_1 =>
    cases h
    exact hello_writesTables _ _
  case h_4 =>
    cases h
    split <;> exact rfl
  case h_5 =>
    split at h
    · exact judgeEvent_writesTables h
    · cases h
      exact rfl
  all_goals
    cases h
    exact rfl

end

/-! ## Operations that write more than the tables -/

section
variable {s t : State}

/-- The end of STOP leaves PAUSED (R160). -/
theorem endStop_mode (h : s.endStop = .ok t) : t.mode = .paused := by
  obtain ⟨u, -, h⟩ := bind_ok h
  obtain ⟨v, -, h⟩ := bind_ok h
  cases h
  rfl

theorem endRetire_mode (h : s.endRetire = .ok t) : t.mode = s.mode := by
  obtain ⟨u, hdone, h⟩ := bind_ok h
  cases h
  exact (post_writesTables hdone).mode

theorem completeEntry_mode {e : StackEntry} (h : s.completeEntry e = .ok t) : t.mode = s.mode := by
  have hdone (n : Node) : (s.endWithDone e n).mode = s.mode := by
    unfold State.endWithDone
    split <;> rfl
  unfold State.completeEntry at h
  cases hcase : e.endCase with
  | localEntry | staleEntry =>
    rw [hcase] at h
    cases h
    rfl
  | edgeEntry n | releasedEntry n =>
    rw [hcase] at h
    cases h
    exact hdone n
  | repostEntry =>
    rw [hcase] at h
    obtain ⟨u, hinsert, h⟩ := bind_ok h
    cases h
    exact (insertEntry_writesTables hinsert).mode

theorem discardEntry_mode (slot : Fin 32) (e : Entry) : (s.discardEntry slot e).mode = s.mode := by
  unfold State.discardEntry
  split
  · rfl
  · exact (notify_writesTables e _).mode

theorem State.PollChoice.mode (h : s.PollChoice t) : t.mode = s.mode := by
  cases h <;> rfl

theorem choose_mode : s.choose.mode = s.mode := by
  by_cases hcount : 2 ≤ s.outCount
  · exact (choose_pollChoice (stepOutbound_passes (.inl hcount))).mode
  · have hroom : s.outCount < 2 := not_le.mp hcount
    cases hhead : takeHead s.nodes s.queue with
    | none => exact ((choose_pollChoice (stepOutbound_empties hroom hhead)).mode :)
    | some head =>
      rw [choose_outbound (stepOutbound_loads hroom hhead)]
      rfl

end

/-! ## The commands that leave the mode -/

/-- The outcome's next state has the mode of `s`. -/
abbrev KeepsMode (s : State) : Host.Outcome State Fault Refusal → Prop := EveryNext fun t => t.mode = s.mode

section
variable (s : State)

theorem execClaim_keepsMode : KeepsMode s (execClaim s) := by
  unfold execClaim
  cases s.claimDecision with
  | null reason => exact .next rfl
  | auto slot e => exact .next (notify_writesTables (s := s.setSlot slot none) e _).mode
  | ordinary slot e => exact .next rfl

/-- A code that names no command leaves the mode (R155). -/
theorem execBadCmd_keepsMode {code : Byte} (hcode : wellFormed (.badCmd code) = true) :
    KeepsMode s (execBadCmd code s) := by
  have hnone : CmdCode.ofByte code = none := Option.isNone_iff_eq_none.mp hcode
  simp only [execBadCmd, hnone]
  exact .taken rfl (.next rfl)

/-- A write to a register with no behaviour of its own leaves the mode (R153). -/
theorem execRegisterWrite_keepsMode {addr : BitVec 4} {value : Byte}
    (haddr : wellFormed (.registerWrite addr value) = true) : KeepsMode s (execRegisterWrite addr value s) := by
  have hown : (Reg.ofAddr addr).ownWrite = false := by simpa [wellFormed] using haddr
  unfold execRegisterWrite
  cases hreg : Reg.ofAddr addr with
  | cmdRes | floor | lven => simp [hreg, Reg.ownWrite] at hown
  | arg i =>
    refine .taken rfl (.next ?_)
    unfold State.setArg
    split <;> rfl
  | stat | claim | cwSrc | cwLvl | cwFlg | cwPl0 | cwPl1 | top => exact .next rfl

theorem execRestartClearStep_keepsMode : KeepsMode s (execRestartClearStep s) := by
  unfold execRestartClearStep
  cases s.command with
  | restart i =>
    dsimp only
    split <;> exact .next rfl
  | idle | stop | retire => exact .next rfl

theorem execComplete_keepsMode : KeepsMode s (execComplete s) := by
  refine .taken rfl ?_
  split
  · exact .next rfl
  · split
    · exact .next rfl
    · exact .settle fun _ => completeEntry_mode

theorem execCompleteTop_keepsMode : KeepsMode s (execCompleteTop s) := by
  refine .taken rfl ?_
  split
  · exact .next rfl
  · split
    · exact .next rfl
    · exact .settle fun _ => completeEntry_mode

theorem execDiscard_keepsMode : KeepsMode s (execDiscard s) := by
  refine .taken rfl ?_
  split
  · exact .next rfl
  · split
    · exact .next rfl
    · split
      · exact .next rfl
      · split
        · exact .next rfl
        · exact .next (discardEntry_mode _ _)

theorem execGetEntry_keepsMode : KeepsMode s (execGetEntry s) := by
  refine .taken rfl ?_
  split
  · exact .next rfl
  · split
    · exact .next rfl
    · split <;> exact .next rfl

theorem execSetLine_keepsMode : KeepsMode s (execSetLine s) := by
  refine .taken rfl ?_
  split
  · exact .next rfl
  · dsimp only
    split <;> exact .next rfl

theorem execSetNode_keepsMode : KeepsMode s (execSetNode s) := by
  refine .taken rfl ?_
  split
  · exact .next rfl
  · split <;> exact .next rfl

theorem execSetLink_keepsMode : KeepsMode s (execSetLink s) := by
  refine .taken rfl ?_
  split
  · split <;> exact .next rfl
  · exact .next rfl

theorem execRetire_keepsMode : KeepsMode s (execRetire s) := by
  refine .taken rfl ?_
  split
  · exact .next rfl
  · split
    · exact .next rfl
    · split
      · exact .next rfl
      · split
        · exact .next rfl
        · exact .next (by rw [beginRetire_eq])

theorem execRetireWalkStep_keepsMode : KeepsMode s (execRetireWalkStep s) := by
  unfold execRetireWalkStep
  cases s.command with
  | retire n i =>
    dsimp only
    split
    · exact .next rfl
    · exact .settle fun _ => endRetire_mode
  | idle | stop | restart => exact .next rfl

theorem execSchedulerChoice_keepsMode : KeepsMode s (execSchedulerChoice s) := by
  unfold execSchedulerChoice
  split
  · exact .next choose_mode
  · exact .next rfl

theorem execFrameTransmitted_keepsMode : KeepsMode s (execFrameTransmitted s) := by
  unfold execFrameTransmitted
  split
  · exact .next (reportTransmission_writesTables _).mode
  · exact .next rfl

theorem execReplyWaitExpiry_keepsMode : KeepsMode s (execReplyWaitExpiry s) := by
  unfold execReplyWaitExpiry
  split
  · exact .next (slotFault_writesTables _ _).mode
  · exact .next rfl

theorem execStartBit_keepsMode (k : Nat) : KeepsMode s (execStartBit k s) := by
  unfold execStartBit
  split <;> exact .next rfl

theorem execReplyReceived_keepsMode (ldi : List Bool) : KeepsMode s (execReplyReceived ldi s) := by
  have hgood (s : State) (r : ReplyRecord) : (s.goodReply r).mode = s.mode := by
    unfold State.goodReply
    split <;> rfl
  unfold execReplyReceived
  split
  · dsimp only
    split
    · exact .next (hgood _ _)
    · exact .next (badFrame_writesTables (s := s.assemble _) _ _).mode
  · exact .next rfl

theorem execFramingError_keepsMode (ldi : List Bool) : KeepsMode s (execFramingError ldi s) := by
  unfold execFramingError
  split <;> exact .next rfl

theorem execDrainEnd_keepsMode : KeepsMode s (execDrainEnd s) := by
  unfold execDrainEnd
  split
  · exact .next (badFrame_writesTables _ _).mode
  · exact .next rfl

theorem execAdmissionTake_keepsMode : KeepsMode s (execAdmissionTake s) := by
  unfold execAdmissionTake
  split
  · exact .next rfl
  · split
    · exact .next rfl
    · exact .settle fun _ h => (handleReply_writesTables h).mode

theorem execLocalPosting_keepsMode (c : LocalCondition) : KeepsMode s (execLocalPosting c s) := by
  unfold execLocalPosting
  split
  · exact .settle fun _ h => (post_writesTables h).mode
  · exact .next rfl

end

/-! ## The commands that write the mode -/

/-- How a command may change the mode (R158): only its own writers have anything to write. -/
def ModeWrite (c : Instr) (s t : State) : Prop :=
  match c with
  | .start => s.mode = .config ∧ t.mode = .run
  | .stop => s.mode = .run ∧ (s.link ≠ .idle ∧ t.mode = .stopping ∨ s.link = .idle ∧ t.mode = .paused)
  | .guardEnd => s.mode = .stopping ∧ s.link = .guard ∧ t.mode = .paused
  | .resume => s.mode = .paused ∧ t.mode = .run
  | .restart => t.mode = .config
  | .pinReset _ => t.mode = .config
  | _ => False

/-- The outcome's next state has the mode of `s`, or the mode that the command writes. -/
abbrev MayWriteMode (c : Instr) (s : State) : Host.Outcome State Fault Refusal → Prop :=
  EveryNext fun t => t.mode = s.mode ∨ ModeWrite c s t

theorem KeepsMode.mayWriteMode {s : State} {o : Host.Outcome State Fault Refusal} (h : KeepsMode s o) (c : Instr) :
    MayWriteMode c s o :=
  fun t ht => .inl (h t ht)

section
variable (s : State)

theorem execStart_mayWriteMode : MayWriteMode .start s (execStart s) := by
  refine .taken (.inl rfl) ?_
  split
  next hmode => exact .next (.inr ⟨hmode, rfl⟩)
  · exact .next (.inl rfl)

theorem execStop_mayWriteMode : MayWriteMode .stop s (execStop s) := by
  refine .taken (.inl rfl) ?_
  split
  next hmode =>
    split
    next hflight => exact .next (.inr ⟨hmode, .inl ⟨of_decide_eq_true hflight, rfl⟩⟩)
    next hflight =>
      have hlink : s.link = .idle := by simpa [State.slotInFlight] using hflight
      exact .settle fun t h => .inr ⟨hmode, .inr ⟨hlink, endStop_mode h⟩⟩
  · exact .next (.inl rfl)

theorem execResume_mayWriteMode : MayWriteMode .resume s (execResume s) := by
  refine .taken (.inl rfl) ?_
  split
  next hmode => exact .next (.inr ⟨hmode, rfl⟩)
  · exact .next (.inl rfl)

theorem execRestart_mayWriteMode : MayWriteMode .restart s (execRestart s) :=
  .taken (.inl rfl) (.next (.inr rfl))

theorem execPinReset_mayWriteMode (periods : Nat) : MayWriteMode (.pinReset periods) s (execPinReset periods s) := by
  unfold execPinReset
  dsimp only
  split
  · exact .next (.inr rfl)
  · split
    · exact .next (.inr rfl)
    · exact .next (.inl rfl)

theorem execGuardEnd_mayWriteMode : MayWriteMode .guardEnd s (execGuardEnd s) := by
  unfold execGuardEnd
  split
  next hlink =>
    dsimp only
    split
    next hmode => exact .settle fun t h => .inr ⟨hmode, hlink, endStop_mode h⟩
    · exact .next (.inl rfl)
  · exact .next (.inl rfl)

end

/-- What each well-formed command does to the mode. -/
theorem exec_mayWriteMode {c : Instr} (hwf : wellFormed c = true) (s : State) : MayWriteMode c s (exec c s) := by
  cases c with
  | start => exact execStart_mayWriteMode s
  | stop => exact execStop_mayWriteMode s
  | resume => exact execResume_mayWriteMode s
  | restart => exact execRestart_mayWriteMode s
  | pinReset periods => exact execPinReset_mayWriteMode s periods
  | guardEnd => exact execGuardEnd_mayWriteMode s
  | statRead => exact .next (.inl rfl)
  | floorWrite value => exact .next (.inl rfl)
  | lvenWrite reg value => cases reg <;> exact .next (.inl rfl)
  | claim => exact (execClaim_keepsMode s).mayWriteMode _
  | registerWrite addr value => exact (execRegisterWrite_keepsMode s hwf).mayWriteMode _
  | badCmd code => exact (execBadCmd_keepsMode s hwf).mayWriteMode _
  | restartClearStep => exact (execRestartClearStep_keepsMode s).mayWriteMode _
  | complete => exact (execComplete_keepsMode s).mayWriteMode _
  | completeTop => exact (execCompleteTop_keepsMode s).mayWriteMode _
  | discard => exact (execDiscard_keepsMode s).mayWriteMode _
  | getEntry => exact (execGetEntry_keepsMode s).mayWriteMode _
  | setLine => exact (execSetLine_keepsMode s).mayWriteMode _
  | getLine => exact .taken (.inl rfl) (by split <;> exact .next (.inl rfl))
  | setNode => exact (execSetNode_keepsMode s).mayWriteMode _
  | getNode => exact .taken (.inl rfl) (by split <;> exact .next (.inl rfl))
  | setLink => exact (execSetLink_keepsMode s).mayWriteMode _
  | retire => exact (execRetire_keepsMode s).mayWriteMode _
  | retireWalkStep => exact (execRetireWalkStep_keepsMode s).mayWriteMode _
  | schedulerChoice => exact (execSchedulerChoice_keepsMode s).mayWriteMode _
  | frameTransmitted => exact (execFrameTransmitted_keepsMode s).mayWriteMode _
  | replyWaitExpiry => exact (execReplyWaitExpiry_keepsMode s).mayWriteMode _
  | replyReceived ldi => exact (execReplyReceived_keepsMode s ldi).mayWriteMode _
  | drainEnd => exact (execDrainEnd_keepsMode s).mayWriteMode _
  | admissionTake => exact (execAdmissionTake_keepsMode s).mayWriteMode _
  | localPosting c => exact (execLocalPosting_keepsMode s c).mayWriteMode _
  | startBit k => exact (execStartBit_keepsMode s k).mayWriteMode _
  | framingError ldi => exact (execFramingError_keepsMode s ldi).mayWriteMode _

/-- Settles O8: a command that does not keep the mode is one of the writers of `ModeWrite`. -/
theorem modeChangesOnlyAsListed : Obligations.ModeChangesOnlyAsListed := by
  intro c s t hwf hexec hchanged
  have hwrite : ModeWrite c s t := (exec_mayWriteMode hwf s t hexec).resolve_left hchanged
  unfold ModeWrite at hwrite
  split at hwrite
  · exact .inl ⟨rfl, hwrite⟩
  · obtain ⟨hrun, ⟨hlink, hstopping⟩ | ⟨hlink, hpaused⟩⟩ := hwrite
    · exact .inr (.inl ⟨rfl, hrun, hlink, hstopping⟩)
    · exact .inr (.inr (.inl ⟨rfl, hrun, hlink, hpaused⟩))
  · exact .inr (.inr (.inr (.inl ⟨rfl, hwrite⟩)))
  · exact .inr (.inr (.inr (.inr (.inl ⟨rfl, hwrite⟩))))
  · exact .inr (.inr (.inr (.inr (.inr (.inl ⟨rfl, hwrite⟩)))))
  · exact .inr (.inr (.inr (.inr (.inr (.inr ⟨_, rfl, hwrite⟩)))))
  · exact hwrite.elim

end Sys2Proof.Machine
end

section
/-! SUPPORT. The host port (R153 to R157, R166, R170): the flags of STAT, what each address and each code stands for, and what a
bus access returns. -/

namespace Sys2Proof.Machine

/-! ## STAT -/

/-- STAT holds the mode in its two lowest bits, and each flag at the bit of its own (R154, R166). -/
theorem statByte_fields (s : State) :
    s.statByte.toNat % 4 = s.mode.code ∧ s.statByte.getLsbD 2 = s.busy ∧ s.statByte.getLsbD 3 = s.cmdLost ∧
      s.statByte.getLsbD 6 = s.poolFull ∧ s.statByte.getLsbD 7 = s.queueFull := by
  unfold State.statByte
  generalize s.mode = m, s.busy = b2, s.cmdLost = b3, s.irq = b4, s.stackFull = b5, s.poolFull = b6, s.queueFull = b7
  revert b2 b3 b4 b5 b6 b7
  cases m <;> decide

/-- A count that never passes its limit is at least the limit exactly when it is the limit (log entry 14). -/
theorem full_iff {n limit : Nat} (h : n ≤ limit) : decide (limit ≤ n) = true ↔ n = limit :=
  decide_eq_true_iff.trans h.ge_iff_eq

/-- Settles O11: the bits of `statByte_fields` and `statByte_irq_stackFull`, full as `full_iff` has it. -/
theorem statReadShowsTheFlags : Obligations.StatReadShowsTheFlags := by
  intro s hstack hqueue hpool
  obtain ⟨hmode, hbusy, hlost, hpoolFull, hqueueFull⟩ := statByte_fields s
  obtain ⟨hirq, hstackFull⟩ := statByte_irq_stackFull s
  refine ⟨s.statByte, rfl, rfl, ?_, ?_, hlost, hirq, ?_, ?_, ?_⟩
  · rintro m k hcode rfl
    rw [hmode]
    revert hcode
    cases s.mode <;> simp +contextual [Mode.code]
  · rw [hbusy]
    exact decide_eq_true_iff
  · rw [hstackFull]
    exact full_iff hstack.1
  · rw [hpoolFull]
    exact full_iff hpool
  · rw [hqueueFull]
    exact full_iff hqueue

/-! ## Addresses and codes -/

/-- The addresses that a write leaves without effect (R153). -/
theorem ofAddr_readOnly : ∀ a : BitVec 4, a.toNat ∈ [0x0, 0x6, 0x7, 0x8, 0x9, 0xA, 0xB, 0xD] →
    Reg.ofAddr a ∈ [Reg.stat, .claim, .cwSrc, .cwLvl, .cwFlg, .cwPl0, .cwPl1, .top] := by decide

/-- The addresses of the arguments (R153). -/
theorem ofAddr_arg : ∀ a : BitVec 4, 2 ≤ a.toNat → a.toNat ≤ 5 → ∃ i, Reg.ofAddr a = .arg i := by decide

/-- The addresses whose reads have an effect (R153). -/
theorem hostRead_eq : ∀ a : BitVec 4,
    hostRead a = if a = 0x0#4 then some .statRead else if a = 0x6#4 then some .claim else none := by decide

/-- The codes that name a command are those of R166. -/
theorem ofByte_eq_none {code : Byte}
    (h : code.toNat ∉ [0x01, 0x02, 0x03, 0x04, 0x10, 0x11, 0x12, 0x13, 0x20, 0x21, 0x30, 0x31, 0x32, 0x38]) :
    CmdCode.ofByte code = none := by
  unfold CmdCode.ofByte
  split
  case h_15 => rfl
  all_goals simp_all

section
variable {s : State} {a : BitVec 4} {v : Byte}

theorem execRegisterWrite_readOnly
    (h : Reg.ofAddr a ∈ [Reg.stat, .claim, .cwSrc, .cwLvl, .cwFlg, .cwPl0, .cwPl1, .top]) :
    execRegisterWrite a v s = .next s := by
  unfold execRegisterWrite
  cases hreg : Reg.ofAddr a with
  | stat | claim | cwSrc | cwLvl | cwFlg | cwPl0 | cwPl1 | top => rfl
  | cmdRes | arg | floor | lven => simp [hreg] at h

theorem execRegisterWrite_arg {i : Fin 4} (h : Reg.ofAddr a = .arg i) :
    execRegisterWrite a v s = s.taken (.next (s.setArg i v)) := by
  simp only [execRegisterWrite, h]

theorem hostWrite_unnamed (hreg : Reg.ofAddr a = .cmdRes) (h : CmdCode.ofByte v = none) :
    hostWrite a v = .badCmd v := by
  simp only [hostWrite, hreg, h]

theorem execBadCmd_unnamed (h : CmdCode.ofByte v = none) : execBadCmd v s = s.taken (.next (s.withRes .badCmd)) := by
  simp only [execBadCmd, h]

theorem execBadCmd_named {c : CmdCode} (h : CmdCode.ofByte v = some c) : execBadCmd v s = c.run s := by
  simp only [execBadCmd, h]

/-- The row of the table that a code stands for is the command that the Command Unit takes by it (R155, R166). -/
theorem exec_instr (c : CmdCode) : exec (CmdCode.instr c) s = c.run s := by
  cases c <;> rfl

/-- A command written while BUSY is lost, whichever it is (R156). -/
theorem run_busy (hbusy : s.command ≠ .idle) (c : CmdCode) : c.run s = .next { s with cmdLost := true } := by
  cases c <;> exact taken_busy hbusy

/-- The commands of the Command Unit are those that a code stands for (R166). -/
theorem exists_instr {c : Instr}
    (h : c ∈ [.start, .stop, .resume, .restart, .complete, .completeTop, .discard, .getEntry, .setLine, .getLine, .setNode,
      .getNode, .retire, .setLink]) : ∃ code : CmdCode, CmdCode.instr code = c := by
  have hall : [Instr.start, .stop, .resume, .restart, .complete, .completeTop, .discard, .getEntry, .setLine, .getLine,
      .setNode, .getNode, .retire, .setLink] =
      [CmdCode.start, .stop, .resume, .restart, .complete, .completeTop, .discard, .getEntry, .setLine, .getLine,
        .setNode, .getNode, .retire, .setLink].map CmdCode.instr := rfl
  rw [hall] at h
  obtain ⟨code, -, hcode⟩ := List.mem_map.mp h
  exact ⟨code, hcode⟩

end

/-- Settles O12: an argument write and a command are both taken or lost by `taken_idle` and `taken_busy`. -/
theorem registerWritesAndLostCommands : Obligations.RegisterWritesAndLostCommands := by
  intro s v
  refine ⟨fun hidle => ⟨taken_idle hidle, taken_idle hidle, taken_idle hidle, taken_idle hidle⟩, fun hbusy a hlow hhigh => ?_,
    fun hbusy c hc => ?_, fun a ha => execRegisterWrite_readOnly (ofAddr_readOnly a ha), fun res code hcode hres => ?_,
    rfl, rfl, rfl, rfl⟩
  · obtain ⟨i, hreg⟩ := ofAddr_arg a hlow hhigh
    exact (execRegisterWrite_arg hreg).trans (taken_busy hbusy)
  · obtain ⟨code, rfl⟩ := exists_instr hc
    exact (exec_instr code).trans (run_busy hbusy code)
  · have hread : s.readRegister 0x1#4 = s.res.byte := rfl
    rw [hread, hres]
    cases res <;> simp_all [ResultCode.byte]

/-- Settles O13: a code that is not in R166's list names no command by `ofByte_eq_none`. -/
theorem codesNameTheCommands : Obligations.CodesNameTheCommands := by
  refine ⟨rfl, fun v => ⟨rfl, rfl, rfl⟩, hostRead_eq, fun s code hcode => ?_⟩
  have hnone := ofByte_eq_none hcode
  exact ⟨hostWrite_unnamed rfl hnone, fun hidle => (execBadCmd_unnamed hnone).trans (taken_idle hidle),
    fun hbusy => (execBadCmd_unnamed hnone).trans (taken_busy hbusy)⟩

/-! ## The bus -/

section
variable {a : BitVec 4} {v : Byte}

/-- What a write spells, by the register that its address selects (R153, R155). -/
theorem hostWrite_cases (a : BitVec 4) (v : Byte) :
    (Reg.ofAddr a = .cmdRes ∧
      ((∃ c, CmdCode.ofByte v = some c ∧ hostWrite a v = CmdCode.instr c) ∨
        (CmdCode.ofByte v = none ∧ hostWrite a v = .badCmd v))) ∨
    (Reg.ofAddr a = .floor ∧ hostWrite a v = .floorWrite v) ∨
    (∃ r, Reg.ofAddr a = .lven r ∧ hostWrite a v = .lvenWrite r v) ∨
    ((Reg.ofAddr a).ownWrite = false ∧ hostWrite a v = .registerWrite a v) := by
  unfold hostWrite
  cases Reg.ofAddr a with
  | cmdRes =>
    cases CmdCode.ofByte v with
    | some c => exact .inl ⟨rfl, .inl ⟨c, rfl, rfl⟩⟩
    | none => exact .inl ⟨rfl, .inr ⟨rfl, rfl⟩⟩
  | floor => exact .inr (.inl ⟨rfl, rfl⟩)
  | lven r => exact .inr (.inr (.inl ⟨r, rfl, rfl⟩))
  | stat | arg | claim | cwSrc | cwLvl | cwFlg | cwPl0 | cwPl1 | top => exact .inr (.inr (.inr ⟨rfl, rfl⟩))

/-- Every command that a code stands for is a command of the table whatever its operands, since it has none. -/
theorem instr_wellFormed (c : CmdCode) : wellFormed (CmdCode.instr c) = true := by
  cases c <;> rfl

theorem hostWrite_wellFormed (a : BitVec 4) (v : Byte) : wellFormed (hostWrite a v) = true := by
  rcases hostWrite_cases a v with ⟨-, ⟨c, -, hwrite⟩ | ⟨hnone, hwrite⟩⟩ | ⟨-, hwrite⟩ | ⟨r, -, hwrite⟩ | ⟨hown, hwrite⟩
  · rw [hwrite]
    exact instr_wellFormed c
  · rw [hwrite]
    exact Option.isNone_iff_eq_none.mpr hnone
  · rw [hwrite]
    rfl
  · rw [hwrite]
    rfl
  · simp only [hwrite, wellFormed, hown, Bool.not_false]

/-- The write that an access spells is the write of its register (log entry 18). -/
theorem exec_hostWrite (a : BitVec 4) (v : Byte) (s : State) : exec (hostWrite a v) s = exec (.registerWrite a v) s := by
  change _ = execRegisterWrite a v s
  rcases hostWrite_cases a v with ⟨hreg, ⟨c, hc, hwrite⟩ | ⟨-, hwrite⟩⟩ | ⟨hreg, hwrite⟩ | ⟨r, hreg, hwrite⟩ | ⟨-, hwrite⟩
  · simp only [hwrite, execRegisterWrite, hreg, exec_instr, execBadCmd_named hc]
  · simp only [hwrite, execRegisterWrite, hreg, exec]
  · simp only [hwrite, execRegisterWrite, hreg, exec, execFloorWrite]
  · simp only [hwrite, execRegisterWrite, hreg, exec, execLvenWrite]
  · rw [hwrite]
    rfl

/-- R165, R170: with nCS high, nRST low, or the strobes alike, an access is no command. -/
theorem busAccess_none {nCS nRD nWR nRST : Bool} (h : nCS = true ∨ nRST = false ∨ nRD = nWR) :
    busAccess nCS nRD nWR nRST a v = none := by
  revert h
  cases nCS <;> cases nRD <;> cases nWR <;> cases nRST <;> simp [busAccess]

/-- R165, R170: with nCS or nRD high, or nRST low, D7 to D0 are high impedance. -/
theorem dataPins_none {s : State} {nCS nRD nWR nRST : Bool} (h : nCS = true ∨ nRD = true ∨ nRST = false) :
    s.dataPins nCS nRD nWR nRST a = none := by
  revert h
  cases nCS <;> cases nRD <;> cases nWR <;> cases nRST <;> simp [State.dataPins]

/-- A claim returns the tag of the entry it takes, or 0 (R59). -/
theorem execClaim_readData {s t : State} (h : execClaim s = .next t) : t.readData = some s.claimValue := by
  unfold State.claimValue
  cases hdecision : s.claimDecision with
  | null reason =>
    rw [execClaim_null hdecision] at h
    cases h
    rfl
  | auto i e =>
    rw [execClaim_auto hdecision] at h
    cases h
    rfl
  | ordinary i e =>
    rw [execClaim_ordinary hdecision] at h
    cases h
    rfl

/-- The two reads with an effect return the value of their register (R59, R154). -/
theorem hostRead_readData {c : Instr} {s t : State} (hread : hostRead a = some c) (hexec : exec c s = .next t) :
    t.readData = some (s.readRegister a) := by
  rw [hostRead_eq] at hread
  split at hread
  next haddr =>
    cases hread
    cases hexec
    rw [haddr]
    rfl
  · split at hread
    next haddr =>
      cases hread
      rw [haddr]
      exact execClaim_readData hexec
    · cases hread

end

/-- Settles O14: the writes by `hostWrite_cases`, and the two reads with an effect by `hostRead_readData`. -/
theorem hostWritesAreCommandsOfTheTable : Obligations.HostWritesAreCommandsOfTheTable := by
  intro a v
  refine ⟨hostWrite_wellFormed a v, exec_hostWrite a v, rfl, rfl, fun _ _ _ _ => busAccess_none, fun s => ?_⟩
  exact ⟨rfl, fun _ _ _ _ => dataPins_none, fun c t hread hexec => hostRead_readData hread hexec⟩

end Sys2Proof.Machine
end

section
/-! SUPPORT. GET_ENTRY (R164, R166): where a tag is found, and the bytes of the report. -/

namespace Sys2Proof.Machine

/-! ## The bytes of the report -/

theorem entryByte1_eq (loc : Location) (level : Level) :
    entryByte1 loc level = BitVec.ofNat 8 (16 * level.val + loc.code) := by
  refine congrArg (BitVec.ofNat 8) ?_
  simp only [field]
  omega

theorem entryByte2_eq (e : Entry) :
    entryByte2 e = BitVec.ofNat 8 (16 * e.source.val + 8 * (decide (e.kind = .held)).toNat + e.line.val) := by
  refine congrArg (BitVec.ofNat 8) ?_
  simp only [field, flag, Kind.isHeld]
  omega

theorem entryByte3_eq (e : Entry) (released : Bool) :
    entryByte3 e released =
      BitVec.ofNat 8 (64 * released.toNat + 32 * e.repost.toNat + 16 * e.stale.toNat + e.count) := by
  refine congrArg (BitVec.ofNat 8) ?_
  simp only [field, flag]
  omega

/-! ## Where a tag is found -/

section
variable {s : State}

theorem pending_tag_mem_liveTags {e : Entry} (he : e ∈ s.pendingEntries) : e.tag ∈ s.liveTags :=
  List.mem_append_left _ (List.mem_map_of_mem he)

theorem stack_tag_mem_liveTags {e : StackEntry} (he : e ∈ s.stack) : e.entry.tag ∈ s.liveTags :=
  List.mem_append_right _ (List.mem_map_of_mem he)

theorem pendingEntries_eq_nil (htable : ∀ i : Fin 32, s.table[i] = none) : s.pendingEntries = [] :=
  List.eq_nil_iff_forall_not_mem.mpr fun e he => by
    obtain ⟨i, hi⟩ := mem_pendingEntries.mp he
    cases (htable i).symm.trans hi

/-- No tag is live while the table and the stack are empty. -/
theorem liveTags_eq_nil (htable : ∀ i : Fin 32, s.table[i] = none) (hstack : s.stack = []) : s.liveTags = [] := by
  rw [State.liveTags, pendingEntries_eq_nil htable, hstack]
  rfl

theorem pendingTagged_dead {t : Tag} (h : t ∉ s.liveTags) : s.pendingTagged t = none :=
  findPending_none.mpr fun _ he => decide_eq_false fun htag => h (htag ▸ pending_tag_mem_liveTags he)

theorem stackTagged_dead {t : Tag} (h : t ∉ s.liveTags) : s.stackTagged t = none :=
  List.find?_eq_none.mpr fun _ he htag => h (of_decide_eq_true htag ▸ stack_tag_mem_liveTags he)

variable (htags : s.TagsUnique)
include htags

/-- Two slots never hold one tag (R23). -/
theorem slot_of_tag_unique {i j : Fin 32} {e f : Entry} (he : s.table[i] = some e) (hf : s.table[j] = some f)
    (htag : e.tag = f.tag) : i = j := by
  have hpair : s.pendingEntries.Pairwise fun a b => a.tag ≠ b.tag := List.pairwise_map.mp htags.1.of_append_left
  have hslots := List.pairwise_iff_getElem.mp (List.pairwise_filterMap.mp hpair)
  have hlt {i j : Fin 32} {e f : Entry} (he : s.table[i] = some e) (hf : s.table[j] = some f) (htag : e.tag = f.tag) :
      ¬ i < j := fun hij => hslots i j (by simp) (by simp) hij e (by simpa using he) f (by simpa using hf) htag
  exact le_antisymm (not_lt.mp (hlt hf he htag.symm)) (not_lt.mp (hlt he hf htag))

/-- A pending entry's tag finds it (R23). -/
theorem pendingTagged_self {i : Fin 32} {e : Entry} (he : s.table[i] = some e) : s.pendingTagged e.tag = some (i, e) :=
  findPending_eq_some he (decide_eq_true rfl) fun _ _ hf htag => slot_of_tag_unique htags he hf (of_decide_eq_true htag).symm

/-- The tag of an entry in service is no pending entry's (R23). -/
theorem pendingTagged_stacked {e : StackEntry} (he : e ∈ s.stack) : s.pendingTagged e.entry.tag = none := by
  obtain ⟨-, -, hdisjoint⟩ := List.nodup_append.mp htags.1
  exact findPending_none.mpr fun _ hf => decide_eq_false fun htag =>
    hdisjoint _ (List.mem_map_of_mem hf) _ (List.mem_map_of_mem he) htag

/-- The tag of an entry in service finds it (R23). -/
theorem stackTagged_self {e : StackEntry} (he : e ∈ s.stack) : s.stackTagged e.entry.tag = some e := by
  obtain ⟨below, above, hstack⟩ := List.append_of_mem he
  exact stackTagged_middle s below above e hstack (below_tag_ne htags hstack)

end

/-! ## The command -/

section
variable {s : State} (hidle : s.command = .idle)
include hidle

theorem execGetEntry_dead (h : ∀ t ∈ s.liveTags, tagByte t ≠ s.arg0) : execGetEntry s = .next s.reportNoEntry := by
  rw [execGetEntry, taken_idle hidle]
  cases hnamed : tagOfByte s.arg0 with
  | none => rfl
  | some t =>
    have hdead : t ∉ s.liveTags := fun hlive => h t hlive (tagOfByte_some hnamed).1
    simp only [pendingTagged_dead hdead, stackTagged_dead hdead]

variable {t : Tag} (hne : t ≠ 0) (harg : tagByte t = s.arg0)
include hne harg

theorem execGetEntry_pending {i : Fin 32} {e : Entry} (hfound : s.pendingTagged t = some (i, e)) :
    execGetEntry s = .next (s.reportEntry .pending (s.lineLevel e) e false) := by
  simp only [execGetEntry, taken_idle hidle, ← harg, tagOfByte_tagByte hne, hfound]

theorem execGetEntry_serving {e : StackEntry} (hnone : s.pendingTagged t = none) (hfound : s.stackTagged t = some e) :
    execGetEntry s = .next (s.reportEntry .serving e.level e.entry e.released) := by
  simp only [execGetEntry, taken_idle hidle, ← harg, tagOfByte_tagByte hne, hnone, hfound]

end

/-- In CONFIG outside a RESTART no tag is live (R61, R162). -/
theorem liveTags_config {s : State} (hempty : s.ConfigEmpty) (hmode : s.mode = .config) (hidle : s.command = .idle) :
    s.liveTags = [] := by
  obtain ⟨hstack, -, -, -, -, -, -, hslots⟩ := hempty hmode
  refine liveTags_eq_nil (fun i => ?_) hstack
  by_contra hfull
  obtain ⟨next, hnext, -⟩ := hslots i hfull
  simp [State.clearing, hidle] at hnext

/-- Settles O27: a tag is dead, of a pending entry, or of an entry in service, and the report is that of the place. -/
theorem getEntryReportsTheTag : Obligations.GetEntryReportsTheTag := by
  intro s hidle htags
  have hdead : (∀ t ∈ s.liveTags, tagByte t ≠ s.arg0) →
      exec .getEntry s = .next { s with arg1 := 0x00#8, arg2 := 0x00#8, arg3 := 0x00#8, res := .noTag } :=
    execGetEntry_dead hidle
  have hne {t : Tag} (ht : t ∈ s.liveTags) : t ≠ 0 := fun h => htags.2.1 (h ▸ ht)
  refine ⟨hdead, fun i e he harg => ?_, fun e he harg => ?_, fun hempty hmode => hdead ?_⟩
  · have hlive := pending_tag_mem_liveTags (mem_pendingEntries.mpr ⟨i, he⟩)
    refine (execGetEntry_pending hidle (hne hlive) harg (pendingTagged_self htags he)).trans ?_
    rw [State.reportEntry, entryByte1_eq, entryByte2_eq, entryByte3_eq, Bool.toNat_false, Nat.mul_zero, Nat.zero_add]
    rfl
  · have hlive := stack_tag_mem_liveTags he
    refine (execGetEntry_serving hidle (hne hlive) harg (pendingTagged_stacked htags he)
      (stackTagged_self htags he)).trans ?_
    rw [State.reportEntry, entryByte1_eq, entryByte2_eq, entryByte3_eq]
    rfl
  · simp [liveTags_config hempty hmode hidle]

end Sys2Proof.Machine
end

section
/-! SUPPORT. START, STOP, RESUME and RESTART as they are taken (R111, R143, R159 to R163). -/

namespace Sys2Proof.Machine

/-- Settles O33: each of the three commands is taken by its mode check, STOP then by the slot in flight. -/
theorem startStopAndResume : Obligations.StartStopAndResume := by
  intro s hidle
  have hstart : exec .start s = _ := taken_idle hidle
  have hresume : exec .resume s = _ := taken_idle hidle
  have hstop : exec .stop s = _ := taken_idle hidle
  rw [hstart, hresume, hstop]
  refine ⟨fun hmode => if_pos hmode, fun hmode => if_neg hmode, fun hmode => if_pos hmode, fun hmode => if_neg hmode,
    fun hmode hlink => ?_, fun hmode => if_neg hmode⟩
  have hflight : s.slotInFlight = true := decide_eq_true hlink
  exact (if_pos hmode).trans (if_pos hflight)

/-- R111: a slot in flight is cut off into its guard, and an idle link stays idle. -/
theorem cutOff_eq (l : LinkState) : l.cutOff = if l = .idle then .idle else .guard := by
  cases l <;> rfl

/-- R143: a node record after RESTART keeps its join setting and its configured limit. -/
theorem beginRestart_nodes (s : State) (n : Node) :
    s.beginRestart.nodes[n] = ⟨.absent, s.nodes[n].join, s.nodes[n].configLimit, 0, 0, 0, false, false, 0, 0⟩ :=
  mapSlots_getElem ..

/-- Settles O36: the state that RESTART begins its walk with is `beginRestart`. -/
theorem restartBeginsTheClear : Obligations.RestartBeginsTheClear := by
  intro s hidle
  refine ⟨s.beginRestart.nodes, (taken_idle hidle : exec .restart s = _).trans ?_, beginRestart_nodes s⟩
  rw [← cutOff_eq]
  rfl

end Sys2Proof.Machine
end

section
/-! SUPPORT. The block after a pin reset (R7, R25, R42, R130, R165): its tables, its counts, and the laws that hold of it. -/

namespace Sys2Proof.Machine

/-! ## The tables -/

theorem reset_lineMap (src : Source) (line : Line) : State.reset.lineMap[src][line] = LineConfig.reset := by
  simp [State.reset]

theorem reset_lineConfig (src : Source) (line : Line) : State.reset.lineConfig src line = LineConfig.reset :=
  reset_lineMap src line

theorem reset_table (i : Fin 32) : State.reset.table[i] = none := by
  simp [State.reset]

theorem reset_rotation (l : Level) : State.reset.rotation[l] = 15 := by
  simp [State.reset]

theorem reset_nodes (n : Node) : State.reset.nodes[n] = NodeRecord.reset := by
  simp [State.reset]

theorem reset_pendingEntries : State.reset.pendingEntries = [] := pendingEntries_eq_nil reset_table

/-- No tag is live after a pin reset (R42). -/
theorem reset_liveTags : State.reset.liveTags = [] := liveTags_eq_nil reset_table rfl

/-- The pool count is 0 after a pin reset (R25, R42). -/
theorem reset_poolCount : State.reset.poolCount = 0 := by
  rw [State.poolCount, reset_pendingEntries]
  rfl

/-- A node's held credits are 0 after a pin reset (R42, R128). -/
theorem reset_heldCredits (n : Node) : State.reset.heldCredits n = 0 := by
  rw [State.heldCredits, reset_pendingEntries]
  rfl

/-- A node record after a pin reset is within its ranges (R130). -/
theorem reset_nodes_legal (n : Node) :
    State.reset.nodes[n].Legal ∧ (State.reset.nodes[n].state = .active → State.reset.nodes[n].faults < 7) := by
  rw [reset_nodes]
  decide

/-! ## The laws -/

/-- Settles O4: nothing is pending, in service, queued or in flight, no node is known, and every line is EDGE. -/
theorem safetyHoldsAtReset : Obligations.SafetyHoldsAtReset where
  stackOrdered := ⟨Nat.zero_le _, .nil⟩
  queueBounded := Nat.zero_le _
  poolBounded := reset_poolCount.trans_le (Nat.zero_le _)
  linesUnique := by
    rw [State.LinesUnique, reset_pendingEntries]
    exact .nil
  tagsUnique := by
    rw [State.TagsUnique, reset_liveTags]
    decide
  lineMapLegal src line hheld := by
    rw [reset_lineConfig] at hheld
    cases hheld
  kindsAgree := ⟨by simp [reset_pendingEntries], List.forall_mem_nil _⟩
  entriesLegal := ⟨by simp [reset_pendingEntries], List.forall_mem_nil _⟩
  heldBlocks := ⟨List.forall_mem_nil _, .nil⟩
  staleHeldRetiring i e he := by
    rw [reset_table] at he
    cases he
  recordsLegal := ⟨reset_nodes_legal, by decide⟩
  creditsBounded _ n := by
    rw [reset_heldCredits]
    exact ⟨Nat.zero_le _, fun _ => rfl⟩
  linkConsistent := by decide
  timerConsistent := by decide
  modeConsistent := by decide
  configEmpty _ :=
    ⟨rfl, rfl, rfl, rfl, fun n => congrArg NodeRecord.state (reset_nodes n), .inl rfl, rfl,
      fun i hfull => absurd (reset_table i) hfull⟩
  pausedIdle := by decide
  admitUnderway n hjoining := by
    rw [reset_nodes] at hjoining
    cases hjoining
  ejectUnderway n hleaving := by
    rw [reset_nodes] at hleaving
    cases hleaving
  holdingLegal := by decide

/-! ## The values -/

/-- A register of the window below the level enables reads 0 after a pin reset (R165, R166). -/
theorem reset_readRegister : ∀ a : BitVec 4, a.toNat ≤ 13 → State.reset.readRegister a = 0x00#8 := by decide

/-- Settles O40: the tables as they stand above, the registers, and the fields as they are written. -/
theorem resetValues : Obligations.ResetValues := by
  refine ⟨rfl, rfl, ?_, ?_, reset_readRegister, rfl, rfl, reset_lineMap, reset_table, rfl, reset_rotation, rfl, rfl,
    reset_nodes, rfl, rfl, rfl, rfl, rfl, rfl, rfl, rfl, rfl, rfl, rfl, ?_, fun i => ⟨rfl, rfl⟩⟩
  · exact reset_readRegister 0x0#4 (by decide)
  · exact reset_readRegister 0xD#4 (by decide)
  · rw [State.irqPin, irq_config rfl]
    rfl

end Sys2Proof.Machine
end

section
/-! SUPPORT. PIN_RESET (R165, R170): what a low pulse on nRST does by its length. -/

namespace Sys2Proof.Machine

/-- A low pulse of at least the reset length is taken (R170). -/
theorem exec_pinReset_long {periods : Nat} (hlong : Config.resetPeriods ≤ periods) (s : State) :
    exec (.pinReset periods) s = .next s.pinReset :=
  if_pos hlong

/-- A shorter pulse uses up one free value, which says whether it is taken (R170, log entry 6). -/
theorem exec_pinReset_short {periods : Nat} (hshort : periods < Config.resetPeriods) (s : State) :
    exec (.pinReset periods) s =
      .next (if Config.shortResetTaken s.freeCount then { s with freeCount := s.freeCount + 1 }.pinReset
        else { s with freeCount := s.freeCount + 1 }) :=
  (if_neg hshort.not_ge).trans (apply_ite Host.Outcome.next ..).symm

/-- Settles O39: the long pulse and the short one. -/
theorem pinResetResetsEverything : Obligations.PinResetResetsEverything :=
  fun s _ => ⟨fun hlong => exec_pinReset_long hlong s, fun hshort => exec_pinReset_short hshort s⟩

end Sys2Proof.Machine
end

section
/-! SUPPORT. The queue of waiting commands: a step takes its front, and no command reads or writes it. Each operation and each
command gives, from a state with another queue, what it gives from the state itself, with that queue. -/

namespace Sys2Proof.Machine

/-! ## The queue replaced -/

/-- The state with another queue of waiting commands. -/
def State.withPending (q : List Instr) (s : State) : State := { s with pending := q }

/-- The outcome with another queue of waiting commands in its next state. -/
def requeued (q : List Instr) : Host.Outcome State Fault Refusal → Host.Outcome State Fault Refusal
  | .next t => .next (t.withPending q)
  | .fault f => .fault f
  | .refused r => .refused r

/-- A command's meaning neither reads nor writes the queue. -/
abbrev IgnoresQueue (f : State → Host.Outcome State Fault Refusal) : Prop :=
  ∀ (s : State) (q : List Instr), f (s.withPending q) = requeued q (f s)

section
variable (s : State) (q : List Instr)

@[simp] theorem withPending_command : (s.withPending q).command = s.command := rfl
@[simp] theorem withPending_arg0 : (s.withPending q).arg0 = s.arg0 := rfl
@[simp] theorem withPending_arg1 : (s.withPending q).arg1 = s.arg1 := rfl
@[simp] theorem withPending_arg2 : (s.withPending q).arg2 = s.arg2 := rfl
@[simp] theorem withPending_arg3 : (s.withPending q).arg3 = s.arg3 := rfl
@[simp] theorem withPending_nodes : (s.withPending q).nodes = s.nodes := rfl
@[simp] theorem withPending_queue : (s.withPending q).queue = s.queue := rfl
@[simp] theorem withPending_burst : (s.withPending q).burst = s.burst := rfl
@[simp] theorem withPending_link : (s.withPending q).link = s.link := rfl
@[simp] theorem withPending_txBuffer : (s.withPending q).txBuffer = s.txBuffer := rfl
@[simp] theorem withPending_holding : (s.withPending q).holding = s.holding := rfl

@[simp] theorem withPending_freeSlot : (s.withPending q).freeSlot = s.freeSlot := rfl
@[simp] theorem withPending_nextTag : (s.withPending q).nextTag = s.nextTag := rfl
@[simp] theorem withPending_pendingOn (src : Source) (line : Line) :
    (s.withPending q).pendingOn src line = s.pendingOn src line := rfl
@[simp] theorem withPending_pendingTagged (t : Tag) : (s.withPending q).pendingTagged t = s.pendingTagged t := rfl
@[simp] theorem withPending_stackTagged (t : Tag) : (s.withPending q).stackTagged t = s.stackTagged t := rfl
@[simp] theorem withPending_topEntry : (s.withPending q).topEntry = s.topEntry := rfl
@[simp] theorem withPending_claimDecision : (s.withPending q).claimDecision = s.claimDecision := rfl
@[simp] theorem withPending_eventRow (n : Node) (kind : EventKind) (line : Line) :
    (s.withPending q).eventRow n kind line = s.eventRow n kind line := rfl
@[simp] theorem withPending_setLineCheck (src : Source) (line : Line) (c : LineConfig) :
    (s.withPending q).setLineCheck src line c = s.setLineCheck src line c := rfl
@[simp] theorem withPending_nextInRing : (s.withPending q).nextInRing = s.nextInRing := rfl

end

/-! ## Choices and sequences -/

section
variable {q : List Instr}

/-- A choice between two results, each of which is an image under `f`. -/
theorem ite_image {α : Type} {f : α → α} {c : Prop} [Decidable c] {a b a' b' : α} (ha : a' = f a) (hb : b' = f b) :
    (if c then a' else b') = f (if c then a else b) := by
  rw [ha, hb, apply_ite f]

theorem bind_withPending {x x' : Except Fault State} {f f' : State → Except Fault State}
    (hx : x' = x.map (.withPending q)) (hf : ∀ u, f' (u.withPending q) = (f u).map (.withPending q)) :
    x' >>= f' = (x >>= f).map (.withPending q) := by
  subst hx
  cases x with
  | ok u => exact hf u
  | error e => rfl

theorem settle_withPending {x x' : Except Fault State} (h : x' = x.map (.withPending q)) :
    settle x' = requeued q (settle x) := by
  subst h
  cases x <;> rfl

theorem taken_withPending {s : State} {o o' : Host.Outcome State Fault Refusal} (h : o' = requeued q o) :
    (s.withPending q).taken o' = requeued q (s.taken o) :=
  ite_image rfl h

end

section
variable (s : State) (q : List Instr)

/-! ## Insertions and local postings -/

theorem insertEntry_withPending (src : Source) (line : Line) (kind : Kind) (payload : List Byte) (repost : Bool) :
    (s.withPending q).insertEntry src line kind payload repost =
      (s.insertEntry src line kind payload repost).map (.withPending q) := by
  simp only [State.insertEntry, withPending_freeSlot, withPending_nextTag]
  cases s.freeSlot with
  | none => rfl
  | some i => cases s.nextTag <;> rfl

theorem post_withPending (line : Line) (payload : List Byte) :
    (s.withPending q).post line payload = (s.post line payload).map (.withPending q) := by
  refine ite_image ?_ rfl
  simp only [withPending_pendingOn]
  cases s.pendingOn localSource line with
  | none => exact insertEntry_withPending s q _ _ _ _ _
  | some found => rfl

theorem postAll_withPending (cs : List LocalCondition) :
    cs.foldlM State.postCondition (s.withPending q) = (cs.foldlM State.postCondition s).map (.withPending q) := by
  induction cs generalizing s with
  | nil => rfl
  | cons c cs ih => exact bind_withPending (post_withPending s q _ _) ih

theorem endStop_withPending : (s.withPending q).endStop = s.endStop.map (.withPending q) :=
  bind_withPending (postAll_withPending { s with raised := [] } q s.raised) fun u =>
    bind_withPending (post_withPending u q _ _) fun _ => rfl

theorem endRetire_withPending : (s.withPending q).endRetire = s.endRetire.map (.withPending q) :=
  bind_withPending (post_withPending s q _ _) fun _ => rfl

/-! ## The ends of an entry -/

theorem notify_withPending (e : Entry) (outcome : DoneOutcome) :
    (s.withPending q).notify e outcome = (s.notify e outcome).withPending q := by
  unfold State.notify
  cases e.notice <;> rfl

theorem repost_withPending (e : StackEntry) : (s.withPending q).repost e = (s.repost e).map (.withPending q) :=
  bind_withPending (insertEntry_withPending s q _ _ _ _ _) fun _ => rfl

theorem endWithDone_withPending (e : StackEntry) (n : Node) :
    (s.withPending q).endWithDone e n = (s.endWithDone e n).withPending q :=
  ite_image rfl rfl

theorem completeEntry_withPending (e : StackEntry) :
    (s.withPending q).completeEntry e = (s.completeEntry e).map (.withPending q) := by
  unfold State.completeEntry
  cases e.endCase with
  | localEntry | staleEntry => rfl
  | edgeEntry n | releasedEntry n => exact congrArg Except.ok (endWithDone_withPending s q e n)
  | repostEntry => exact repost_withPending s q e

theorem discardEntry_withPending (slot : Fin 32) (e : Entry) :
    (s.withPending q).discardEntry slot e = (s.discardEntry slot e).withPending q :=
  ite_image rfl
    (congrArg (State.withRes · .ok) (notify_withPending (s.setSlot slot none) q e .discarded))

/-! ## Faults and HELLO -/

theorem countFault_withPending (n : Node) : (s.withPending q).countFault n = (s.countFault n).withPending q :=
  ite_image (ite_image rfl rfl) rfl

theorem slotFault_withPending (n : Node) (slot : SlotKind) :
    (s.withPending q).slotFault n slot = (s.slotFault n slot).withPending q := by
  cases slot with
  | poll => exact countFault_withPending s q n
  | probe => rfl

theorem badFrame_withPending (n : Node) (slot : SlotKind) :
    (s.withPending q).badFrame n slot = (s.badFrame n slot).withPending q :=
  slotFault_withPending (s.raise (.linkFault n)) q n slot

theorem hello_withPending (n : Node) (declared : Fin 9) :
    (s.withPending q).hello n declared = (s.hello n declared).withPending q := by
  have hjoin : (s.withPending q).joinRequest n declared = (s.joinRequest n declared).withPending q :=
    ite_image rfl rfl
  simp only [State.hello, withPending_nodes]
  cases s.nodes[n].state with
  | absent | lost => exact ite_image hjoin rfl
  | active =>
    rw [restartNode_eq, restartNode_eq]
    refine congrArg (State.raise · (.nodeRestarted n)) (a₂ := State.withPending q _) ?_
    exact ite_image rfl rfl
  | joining | leaving => rfl

/-! ## EVENT -/

theorem applyRow_withPending (row : EventRow) (n : Node) (line : Line) (payload : List Byte) :
    (s.withPending q).applyRow row n line payload = (s.applyRow row n line payload).map (.withPending q) := by
  cases row with
  | row2b | row3b => exact insertEntry_withPending s q _ _ _ _ _
  | row1a | row1b | row2a | row2c | row3a | row3c | row4 | row5a | row5b | row5c | row5d => rfl

theorem decideEvent_withPending (n : Node) (seq : Seq) (more : Bool) (kind : EventKind) (line : Line)
    (payload : List Byte) :
    (s.withPending q).decideEvent n seq more kind line payload =
      (s.decideEvent n seq more kind line payload).map (.withPending q) := by
  simp only [State.decideEvent, withPending_eventRow]
  refine bind_withPending (applyRow_withPending s q _ n line payload) fun u => ?_
  cases (s.eventRow n kind line).accepts with
  | none => rfl
  | some newEntry => exact congrArg Except.ok (ite_image rfl rfl)

theorem sequenceFault_withPending (n : Node) (atOnce : Bool) :
    (s.withPending q).sequenceFault n atOnce = (s.sequenceFault n atOnce).map (.withPending q) := by
  simp only [State.sequenceFault, countFault_withPending]
  refine ite_image (post_withPending _ q _ _) (ite_image ?_ rfl)
  exact post_withPending { s.countFault n with freeCount := s.freeCount + 1 } q _ _

theorem judgeEvent_withPending (n : Node) (seq : Seq) (more : Bool) (kind : EventKind) (line : Line)
    (payload : List Byte) :
    (s.withPending q).judgeEvent n seq more kind line payload =
      (s.judgeEvent n seq more kind line payload).map (.withPending q) :=
  ite_image (decideEvent_withPending s q n seq more kind line payload)
    (ite_image rfl (sequenceFault_withPending s q n _))

theorem handleReply_withPending (r : ReplyRecord) :
    (s.withPending q).handleReply r = (s.handleReply r).map (.withPending q) := by
  obtain ⟨n, slot, reply⟩ := r
  cases reply with
  | hello declared => cases slot <;> exact congrArg Except.ok (hello_withPending s q n declared)
  | idle =>
    cases slot with
    | poll => exact congrArg Except.ok (ite_image rfl rfl)
    | probe => rfl
  | event seq more kind line payload =>
    cases slot with
    | poll => exact ite_image (judgeEvent_withPending s q n seq more kind line payload) rfl
    | probe => rfl

/-! ## The link and the Scheduler -/

theorem reportTransmission_withPending (f : TxFrame) :
    (s.withPending q).reportTransmission f = (s.reportTransmission f).withPending q := by
  unfold State.reportTransmission
  cases f.kind with
  | admitFrame | eject => exact ite_image rfl rfl
  | done | poll | probe => rfl

theorem goodReply_withPending (r : ReplyRecord) :
    (s.withPending q).goodReply r = (s.goodReply r).withPending q := by
  simp only [State.goodReply, withPending_holding]
  cases s.holding <;> rfl

/-- The step of a choice with another queue of waiting commands in its state. -/
def ChoiceStep.withPending (q : List Instr) : ChoiceStep → ChoiceStep
  | .loaded s => .loaded (s.withPending q)
  | .goOn s => .goOn (s.withPending q)

theorem stepOutbound_withPending : (s.withPending q).stepOutbound = s.stepOutbound.withPending q := by
  refine ite_image rfl ?_
  simp only [withPending_nodes, withPending_queue]
  cases takeHead s.nodes s.queue <;> rfl

theorem stepBurst_withPending : (s.withPending q).stepBurst = s.stepBurst.withPending q := by
  simp only [State.stepBurst, withPending_burst]
  cases s.burst with
  | armed n => exact ite_image rfl rfl
  | clear | spent => rfl

theorem pollOrProbe_withPending : (s.withPending q).pollOrProbe = s.pollOrProbe.withPending q := by
  have hpass : { s.withPending q with ring := 15 } = State.withPending q { s with ring := 15 } := rfl
  have hprobe : (State.withPending q { s with ring := 15 }).nextDiscovered = { s with ring := 15 }.nextDiscovered := rfl
  simp only [State.pollOrProbe, withPending_nextInRing, hpass, hprobe]
  cases s.nextInRing with
  | some n => rfl
  | none =>
    cases { s with ring := 15 }.nextDiscovered with
    | some n => rfl
    | none => cases { s with ring := 15 }.nextInRing <;> rfl

theorem choose_withPending : (s.withPending q).choose = s.choose.withPending q := by
  simp only [State.choose, stepOutbound_withPending]
  cases s.stepOutbound with
  | loaded t => rfl
  | goOn t =>
    simp only [ChoiceStep.withPending, stepBurst_withPending]
    cases t.stepBurst with
    | loaded u => rfl
    | goOn u => exact pollOrProbe_withPending u q

end

/-! ## The commands of the host -/

theorem execClaim_ignoresQueue : IgnoresQueue execClaim := by
  intro s q
  simp only [execClaim, withPending_claimDecision]
  cases s.claimDecision with
  | null reason | ordinary slot e => rfl
  | auto slot e =>
    exact congrArg (fun t : State => Host.Outcome.next (t.fillWindow e (s.lineLevel e) true))
      (notify_withPending (s.setSlot slot none) q e .serviced)

theorem execStart_ignoresQueue : IgnoresQueue execStart := fun _ _ => taken_withPending (ite_image rfl rfl)

theorem execStop_ignoresQueue : IgnoresQueue execStop := fun s q =>
  taken_withPending (ite_image (ite_image rfl (settle_withPending (endStop_withPending s q))) rfl)

theorem execResume_ignoresQueue : IgnoresQueue execResume := fun _ _ => taken_withPending (ite_image rfl rfl)

theorem execRestart_ignoresQueue : IgnoresQueue execRestart := fun _ _ => taken_withPending rfl

theorem execRestartClearStep_ignoresQueue : IgnoresQueue execRestartClearStep := by
  intro s q
  simp only [execRestartClearStep, withPending_command]
  cases s.command with
  | restart i =>
    dsimp only
    cases nextSlot i <;> rfl
  | idle | stop | retire => rfl

theorem execComplete_ignoresQueue : IgnoresQueue execComplete := by
  refine fun s q => taken_withPending (ite_image rfl ?_)
  have hfound : (tagOfByte (s.withPending q).arg0).bind (s.withPending q).stackTagged =
      (tagOfByte s.arg0).bind s.stackTagged := rfl
  simp only [hfound]
  cases (tagOfByte s.arg0).bind s.stackTagged with
  | none => rfl
  | some e => exact settle_withPending (completeEntry_withPending s q e)

theorem execCompleteTop_ignoresQueue : IgnoresQueue execCompleteTop := by
  refine fun s q => taken_withPending (ite_image rfl ?_)
  simp only [withPending_topEntry]
  cases s.topEntry with
  | none => rfl
  | some e => exact settle_withPending (completeEntry_withPending { s with arg0 := tagByte e.entry.tag } q e)

theorem execDiscard_ignoresQueue : IgnoresQueue execDiscard := by
  refine fun s q => taken_withPending (ite_image rfl ?_)
  simp only [withPending_arg0, withPending_stackTagged, withPending_pendingTagged]
  cases tagOfByte s.arg0 with
  | none => rfl
  | some t =>
    dsimp only
    cases s.stackTagged t with
    | some e => rfl
    | none =>
      cases s.pendingTagged t with
      | none => rfl
      | some found => exact congrArg Host.Outcome.next (discardEntry_withPending s q _ _)

theorem execGetEntry_ignoresQueue : IgnoresQueue execGetEntry := by
  refine fun s q => taken_withPending ?_
  simp only [withPending_arg0, withPending_stackTagged, withPending_pendingTagged]
  cases tagOfByte s.arg0 with
  | none => rfl
  | some t =>
    dsimp only
    cases s.pendingTagged t with
    | some found => rfl
    | none => cases s.stackTagged t <;> rfl

theorem execSetLine_ignoresQueue : IgnoresQueue execSetLine := by
  refine fun s q => taken_withPending ?_
  simp only [withPending_arg0, withPending_arg1, withPending_arg2, withPending_arg3, withPending_setLineCheck]
  cases lineOfBytes s.arg0 s.arg1 with
  | none => rfl
  | some address =>
    dsimp only
    cases s.setLineCheck address.1 address.2 (configOfArgs s.arg2 s.arg3) <;> rfl

theorem execGetLine_ignoresQueue : IgnoresQueue execGetLine := by
  refine fun s q => taken_withPending ?_
  simp only [withPending_arg0, withPending_arg1]
  cases lineOfBytes s.arg0 s.arg1 <;> rfl

theorem execSetNode_ignoresQueue : IgnoresQueue execSetNode := by
  refine fun s q => taken_withPending ?_
  simp only [withPending_arg0]
  cases nodeOfByte s.arg0 with
  | none => rfl
  | some n => exact ite_image rfl rfl

theorem execGetNode_ignoresQueue : IgnoresQueue execGetNode := by
  refine fun s q => taken_withPending ?_
  simp only [withPending_arg0]
  cases nodeOfByte s.arg0 <;> rfl

theorem execSetLink_ignoresQueue : IgnoresQueue execSetLink := fun _ _ =>
  taken_withPending (ite_image (ite_image rfl rfl) rfl)

theorem execRetire_ignoresQueue : IgnoresQueue execRetire := by
  refine fun s q => taken_withPending (ite_image rfl ?_)
  simp only [withPending_arg0]
  cases nodeOfByte s.arg0 with
  | none => rfl
  | some n => exact ite_image rfl (ite_image rfl rfl)

theorem run_ignoresQueue (c : CmdCode) : IgnoresQueue c.run := by
  cases c with
  | start => exact execStart_ignoresQueue
  | stop => exact execStop_ignoresQueue
  | resume => exact execResume_ignoresQueue
  | restart => exact execRestart_ignoresQueue
  | complete => exact execComplete_ignoresQueue
  | completeTop => exact execCompleteTop_ignoresQueue
  | discard => exact execDiscard_ignoresQueue
  | getEntry => exact execGetEntry_ignoresQueue
  | setLine => exact execSetLine_ignoresQueue
  | getLine => exact execGetLine_ignoresQueue
  | setNode => exact execSetNode_ignoresQueue
  | getNode => exact execGetNode_ignoresQueue
  | retire => exact execRetire_ignoresQueue
  | setLink => exact execSetLink_ignoresQueue

theorem execBadCmd_ignoresQueue (code : Byte) : IgnoresQueue (execBadCmd code) := by
  intro s q
  unfold execBadCmd
  cases CmdCode.ofByte code with
  | none => exact taken_withPending rfl
  | some c => exact run_ignoresQueue c s q

theorem execLvenWrite_ignoresQueue (reg : LvenReg) (value : Byte) : IgnoresQueue (execLvenWrite reg value) := by
  intro s q
  cases reg <;> rfl

theorem execRegisterWrite_ignoresQueue (addr : BitVec 4) (value : Byte) : IgnoresQueue (execRegisterWrite addr value) := by
  have harg (s : State) (q : List Instr) (i : Fin 4) :
      (s.withPending q).setArg i value = (s.setArg i value).withPending q := by
    unfold State.setArg
    split <;> rfl
  intro s q
  unfold execRegisterWrite
  cases Reg.ofAddr addr with
  | arg i => exact taken_withPending (congrArg Host.Outcome.next (harg s q i))
  | cmdRes => exact execBadCmd_ignoresQueue value s q
  | lven r => exact execLvenWrite_ignoresQueue r value s q
  | floor | stat | claim | cwSrc | cwLvl | cwFlg | cwPl0 | cwPl1 | top => rfl

/-! ## The happenings -/

theorem execRetireWalkStep_ignoresQueue : IgnoresQueue execRetireWalkStep := by
  intro s q
  simp only [execRetireWalkStep, withPending_command]
  cases s.command with
  | retire n i =>
    dsimp only
    cases nextSlot i with
    | some j => rfl
    | none => exact settle_withPending (endRetire_withPending (s.purgeSlot n i) q)
  | idle | stop | restart => rfl

theorem execPinReset_ignoresQueue (periods : Nat) : IgnoresQueue (execPinReset periods) := fun _ _ =>
  ite_image rfl (ite_image rfl rfl)

theorem execSchedulerChoice_ignoresQueue : IgnoresQueue execSchedulerChoice := fun s q =>
  ite_image (congrArg Host.Outcome.next (choose_withPending s q)) rfl

theorem execFrameTransmitted_ignoresQueue : IgnoresQueue execFrameTransmitted := by
  intro s q
  simp only [execFrameTransmitted, withPending_link, withPending_txBuffer]
  split
  · rw [reportTransmission_withPending]
    rfl
  · rfl

theorem execReplyWaitExpiry_ignoresQueue : IgnoresQueue execReplyWaitExpiry := by
  intro s q
  simp only [execReplyWaitExpiry, withPending_link, withPending_txBuffer]
  split
  · rw [slotFault_withPending]
    rfl
  · rfl

theorem execStartBit_ignoresQueue (k : Nat) : IgnoresQueue (execStartBit k) := fun _ _ => ite_image rfl rfl

theorem execReplyReceived_ignoresQueue (ldi : List Bool) : IgnoresQueue (execReplyReceived ldi) := by
  intro s q
  simp only [execReplyReceived, withPending_link, withPending_txBuffer]
  split
  next n slot bytes reply _ _ _ =>
    refine congrArg
      (fun t : State => Host.Outcome.next { t.enterLink .guard (s.bitTimer + 8 * bytes.length) with shiftReg := [] })
      (a₂ := State.withPending q _) ?_
    exact ite_image (goodReply_withPending (s.assemble bytes) q _) (badFrame_withPending (s.assemble bytes) q n slot)
  next => rfl

theorem execFramingError_ignoresQueue (ldi : List Bool) : IgnoresQueue (execFramingError ldi) := by
  intro s q
  simp only [execFramingError, withPending_link]
  split <;> rfl

theorem execDrainEnd_ignoresQueue : IgnoresQueue execDrainEnd := by
  intro s q
  simp only [execDrainEnd, withPending_link, withPending_txBuffer]
  split
  · rw [badFrame_withPending]
    rfl
  · rfl

theorem execGuardEnd_ignoresQueue : IgnoresQueue execGuardEnd := fun s q =>
  ite_image
    (ite_image (settle_withPending (endStop_withPending { s.enterLink .idle 0 with txBuffer := none } q)) rfl) rfl

theorem execAdmissionTake_ignoresQueue : IgnoresQueue execAdmissionTake := by
  intro s q
  simp only [execAdmissionTake, withPending_holding]
  cases s.holding with
  | none => rfl
  | some r => exact ite_image rfl (settle_withPending (handleReply_withPending { s with holding := none } q r))

theorem execLocalPosting_ignoresQueue (c : LocalCondition) : IgnoresQueue (execLocalPosting c) := fun s q =>
  ite_image (settle_withPending (post_withPending { s with raised := s.raised.erase c } q _ _)) rfl

/-! ## The statements -/

/-- No command reads or writes the queue. -/
theorem exec_ignoresQueue (c : Instr) : IgnoresQueue (exec c) := by
  cases c with
  | statRead | floorWrite value => exact fun _ _ => rfl
  | claim => exact execClaim_ignoresQueue
  | lvenWrite reg value => exact execLvenWrite_ignoresQueue reg value
  | registerWrite addr value => exact execRegisterWrite_ignoresQueue addr value
  | badCmd code => exact execBadCmd_ignoresQueue code
  | start => exact execStart_ignoresQueue
  | stop => exact execStop_ignoresQueue
  | resume => exact execResume_ignoresQueue
  | restart => exact execRestart_ignoresQueue
  | restartClearStep => exact execRestartClearStep_ignoresQueue
  | complete => exact execComplete_ignoresQueue
  | completeTop => exact execCompleteTop_ignoresQueue
  | discard => exact execDiscard_ignoresQueue
  | getEntry => exact execGetEntry_ignoresQueue
  | setLine => exact execSetLine_ignoresQueue
  | getLine => exact execGetLine_ignoresQueue
  | setNode => exact execSetNode_ignoresQueue
  | getNode => exact execGetNode_ignoresQueue
  | setLink => exact execSetLink_ignoresQueue
  | retire => exact execRetire_ignoresQueue
  | retireWalkStep => exact execRetireWalkStep_ignoresQueue
  | pinReset periods => exact execPinReset_ignoresQueue periods
  | schedulerChoice => exact execSchedulerChoice_ignoresQueue
  | frameTransmitted => exact execFrameTransmitted_ignoresQueue
  | replyWaitExpiry => exact execReplyWaitExpiry_ignoresQueue
  | replyReceived ldi => exact execReplyReceived_ignoresQueue ldi
  | drainEnd => exact execDrainEnd_ignoresQueue
  | guardEnd => exact execGuardEnd_ignoresQueue
  | admissionTake => exact execAdmissionTake_ignoresQueue
  | localPosting c => exact execLocalPosting_ignoresQueue c
  | startBit k => exact execStartBit_ignoresQueue k
  | framingError ldi => exact execFramingError_ignoresQueue ldi

/-- Settles O2: `exec_ignoresQueue`, outcome by outcome. -/
theorem commandsLeaveTheQueueAlone : Obligations.CommandsLeaveTheQueueAlone := by
  intro c s q
  have h := exec_ignoresQueue c s q
  cases hexec : exec c s with
  | next t | fault f | refused r =>
    rw [hexec] at h
    exact h

/-- Settles O1, by the two forms of the queue. -/
theorem stepTakesTheFrontCommand : Obligations.StepTakesTheFrontCommand := by
  intro c rest s
  constructor
  · intro hfront
    rw [step, hfront]
  · intro hempty
    rw [step, hempty]

end Sys2Proof.Machine
end

section
/-! SUPPORT. The place of an insertion (R21, R23): the searches of the allocator end exactly at `State.NextPlace`, and there is
such a place while a slot is empty and a tag is free; and LOCAL_POSTING at that place. -/

namespace Sys2Proof.Machine

/-- What a search in ascending order of `key` finds is the least of what it looks for. -/
theorem find?_key_le {α : Type} {l : List α} {key : α → Nat} (hsorted : l.Pairwise fun a b => key a < key b)
    {p : α → Bool} {a b : α} (hfound : l.find? p = some a) (hmem : b ∈ l) (hb : p b = true) : key a ≤ key b := by
  obtain ⟨-, before, after, rfl, hbefore⟩ := List.find?_eq_some_iff_append.mp hfound
  rcases List.mem_append.mp hmem with hmem | hmem
  · simpa [hb] using hbefore b hmem
  · rcases List.mem_cons.mp hmem with rfl | hmem
    · exact le_rfl
    · obtain ⟨-, hafter, -⟩ := List.pairwise_append.mp hsorted
      exact ((List.pairwise_cons.mp hafter).1 b hmem).le

section
variable {s : State}

theorem nextPlace_of_found {i : Fin 32} {t : Tag} (hslot : s.freeSlot = some i) (htag : s.nextTag = some t) :
    s.NextPlace i t := by
  refine ⟨freeSlot_some hslot, freeSlot_lowest hslot, nextTag_ne_zero htag,
    tagLive_eq_false_iff.mp (nextTag_not_live htag), fun u hne hdead => ?_⟩
  have hfree : s.tagLive u = false := tagLive_eq_false_iff.mpr hdead
  exact find?_key_le (tagOrder_sorted s.lastTag) htag (mem_tagOrder s.lastTag hne) (by simp [hfree])

/-- An empty slot is found (R21). -/
theorem exists_freeSlot {i : Fin 32} (hempty : s.table[i] = none) : ∃ j, s.freeSlot = some j := by
  cases hslot : s.freeSlot with
  | none => exact absurd hempty (freeSlot_none hslot i)
  | some j => exact ⟨j, rfl⟩

theorem tagOrder_length (last : Tag) : (tagOrder last).length = 63 := by
  rw [tagOrder, List.length_map, List.length_range]

/-- With fewer than 63 tags live, one of the 63 that the allocator tries is not (R23). -/
theorem exists_nextTag (hfew : s.liveTags.length < 63) : ∃ t, s.nextTag = some t := by
  cases htag : s.nextTag with
  | some t => exact ⟨t, rfl⟩
  | none =>
    have hnodup : (tagOrder s.lastTag).Nodup := (tagOrder_sorted s.lastTag).imp fun hlt heq => by simp [heq] at hlt
    have hlive : tagOrder s.lastTag ⊆ s.liveTags := fun u hu => by
      by_contra hdead
      have hnone := List.find?_eq_none.mp htag u hu
      simp [tagLive_eq_false_iff.mpr hdead] at hnone
    have hlength := (hnodup.subperm hlive).length_le
    rw [tagOrder_length] at hlength
    exact absurd hfew (not_lt.mpr hlength)

end

/-- Settles O60: the two searches, each with the order it goes by. -/
theorem insertionTakesLowestSlotAndNextTag : Obligations.InsertionTakesLowestSlotAndNextTag := by
  intro s
  refine ⟨fun i t => ⟨fun ⟨hslot, htag⟩ => nextPlace_of_found hslot htag,
    fun hplace => ⟨freeSlot_eq_some hplace, nextTag_eq_some hplace⟩⟩, ?_, fun i t => insertEntry_nextPlace⟩
  rintro ⟨i, hempty⟩ hfew
  obtain ⟨j, hslot⟩ := exists_freeSlot hempty
  obtain ⟨t, htag⟩ := exists_nextTag hfew
  exact ⟨j, t, nextPlace_of_found hslot htag⟩

/-! ## LOCAL_POSTING -/

theorem exec_localPosting_waiting {s : State} {c : LocalCondition} (hwaits : c ∈ s.raised) :
    exec (.localPosting c) s =
      settle (State.post { s with raised := s.raised.erase c } c.line (nodeSet c.node)) :=
  if_pos hwaits

/-- The conditions of one node, with the line of each (R145). -/
theorem condition_line_node {c : LocalCondition} {line : Line} {n : Node}
    (h : (c, line) ∈ [(LocalCondition.nodeJoined n, 0), (.nodeLost n, 1), (.nodeRestarted n, 2), (.linkFault n, 3),
      (.protocolFault n, 4), (.rxOverrun n, 5), (.nodeLeft n, 7)]) : c.line = line ∧ c.node = n := by
  simp only [List.mem_cons, Prod.mk.injEq, List.not_mem_nil, or_false] at h
  rcases h with ⟨rfl, rfl⟩ | ⟨rfl, rfl⟩ | ⟨rfl, rfl⟩ | ⟨rfl, rfl⟩ | ⟨rfl, rfl⟩ | ⟨rfl, rfl⟩ | ⟨rfl, rfl⟩ <;>
    exact ⟨rfl, rfl⟩

/-- Settles O59: the condition's line and node, and then the three forms of a posting. -/
theorem localPostingMergesOrInserts : Obligations.LocalPostingMergesOrInserts := by
  intro s c line n b0 b1 hwaits hlines hcondition hbits
  obtain ⟨rfl, rfl⟩ := condition_line_node hcondition
  rw [exec_localPosting_waiting hwaits, nodeSet_eq hbits]
  refine ⟨fun hdisabled => ?_, fun henabled i e p0 p1 he hsource hline hpayload => ?_,
    fun henabled hnone i t hplace => ?_⟩
  · rw [post_disabled (s := { s with raised := s.raised.erase c }) hdisabled]
    rfl
  · rw [post_merges (s := { s with raised := s.raised.erase c }) henabled hlines he hsource hline, hpayload]
    rfl
  · rw [post_inserts (s := { s with raised := s.raised.erase c }) henabled hnone hplace]
    rfl

end Sys2Proof.Machine
end

section
/-! SUPPORT. The commands that name an entry by its tag and are not settled above: the completion that reposts (R31, R85, R87), and
DISCARD (R35, R89). -/

namespace Sys2Proof.Machine

/-! ## The repost -/

section
variable {s : State} {below above rest : List StackEntry} {e : StackEntry} {n : Node} {i : Fin 32} {t : Tag}

/-- Case P of R82. -/
theorem completeEntry_reposts (hsource : e.entry.source = n.castSucc) (hfresh : e.entry.stale = false)
    (hkind : e.entry.kind = .held) (hholds : e.released = false) : s.completeEntry e = s.repost e := by
  have hcase : e.endCase = .repostEntry := by
    simp [StackEntry.endCase, nodeOf_eq_some_iff.mpr hsource, hfresh, hkind, hholds]
  simp only [State.completeEntry, hcase]

/-- A repost fills the next place under its new tag and takes the old entry off the stack (R31, R85, R87). -/
theorem settle_repost (hstack : s.stack = below ++ e :: above) (hbelow : ∀ x ∈ below, x.entry.tag ≠ e.entry.tag)
    (hrest : below ++ above = rest) (hplace : s.NextPlace i t) :
    settle (s.repost e) = .next { s with
      table := s.table.set i (some ⟨t, e.entry.source, e.entry.line, .held, 1, e.entry.payload, false, true⟩)
      lastTag := t, stack := rest, arg1 := BitVec.ofNat 8 t.val, res := .ok } := by
  rw [State.repost, insertEntry_nextPlace hplace]
  exact congrArg
    (fun u : State => Host.Outcome.next { u with arg1 := BitVec.ofNat 8 t.val, res := .ok })
    (removeStacked_eq (s := { s with table := _, lastTag := t }) hstack hbelow hrest)

end

/-- Settles O24: both commands come to the completion of the entry, and its case is P. -/
theorem completionRepostsAHeldCondition : Obligations.CompletionRepostsAHeldCondition := by
  intro s below above e n i t hidle hmode htags hstack hsource hfresh hkind hholds hplace
  have hbelow := below_tag_ne htags hstack
  refine ⟨fun harg => ?_, ?_⟩
  · refine (execComplete_named hidle hmode htags hstack harg).trans ?_
    rw [completeEntry_reposts hsource hfresh hkind hholds, settle_repost hstack hbelow rfl hplace]
  · rintro rfl
    refine (execCompleteTop_top hidle hmode hstack).trans ?_
    rw [completeEntry_reposts hsource hfresh hkind hholds,
      settle_repost (s := { s with arg0 := tagByte e.entry.tag }) hstack hbelow (List.append_nil below) hplace]
    rfl

/-! ## DISCARD -/

section
variable {s : State} {i : Fin 32} {e : Entry} {n : Node}

theorem discardEntry_silent (h : e.source = 15 ∨ e.stale = true) :
    s.discardEntry i e = { s with table := s.table.set i none, res := .ok } := by
  have hnotice : e.notice = none := h.elim notice_local notice_stale
  have hfree : ¬ (e.notice.isSome && s.queueFull) = true := by simp [hnotice]
  rw [State.discardEntry, if_neg hfree, notify_none hnotice]
  rfl

theorem discardEntry_notified (hsource : e.source = n.castSucc) (hfresh : e.stale = false)
    (hroom : s.queue.length < 16) :
    s.discardEntry i e = { s with
      table := s.table.set i none, queue := s.queue ++ [⟨n, .done e.line .discarded⟩], res := .ok } := by
  have hfree : ¬ (e.notice.isSome && s.queueFull) = true := fun h =>
    not_le.mpr hroom (queueFull_iff.mp (Bool.and_eq_true_iff.mp h).2)
  rw [State.discardEntry, if_neg hfree, notify_some (notice_remote hsource hfresh)]
  rfl

theorem discardEntry_refused (hsource : e.source = n.castSucc) (hfresh : e.stale = false)
    (hfull : 16 ≤ s.queue.length) : s.discardEntry i e = { s with res := .queueFull } := by
  have hnotice := notice_remote hsource hfresh
  exact if_pos (by simp [hnotice, queueFull_iff.mpr hfull])

theorem execDiscard_config (hidle : s.command = .idle) (hmode : s.mode = .config) :
    execDiscard s = .next { s with res := .badMode } :=
  (taken_idle hidle).trans (if_pos hmode)

variable (hidle : s.command = .idle) (hmode : s.mode ≠ .config)
include hidle hmode

theorem execDiscard_dead (h : ∀ t ∈ s.liveTags, tagByte t ≠ s.arg0) : execDiscard s = .next { s with res := .noTag } := by
  rw [execDiscard, taken_idle hidle, if_neg hmode]
  cases hnamed : tagOfByte s.arg0 with
  | none => rfl
  | some t =>
    have hdead : t ∉ s.liveTags := fun hlive => h t hlive (tagOfByte_some hnamed).1
    simp only [pendingTagged_dead hdead, stackTagged_dead hdead]
    rfl

variable (htags : s.TagsUnique)
include htags

theorem execDiscard_serving {e : StackEntry} (he : e ∈ s.stack) (harg : tagByte e.entry.tag = s.arg0) :
    execDiscard s = .next (s.withRes .inService) := by
  simp only [execDiscard, taken_idle hidle, if_neg hmode, ← harg, tagOfByte_tagByte (stack_tag_ne_zero htags he),
    stackTagged_self htags he]

theorem execDiscard_pending (he : s.table[i] = some e) (harg : tagByte e.tag = s.arg0) :
    execDiscard s = .next (s.discardEntry i e) := by
  have hlive : e ∈ s.pendingEntries := mem_pendingEntries.mpr ⟨i, he⟩
  have hne : e.tag ≠ 0 := fun h => htags.2.1 (h ▸ pending_tag_mem_liveTags hlive)
  have hstack : s.stackTagged e.tag = none := List.find?_eq_none.mpr fun x hx htag =>
    (List.nodup_append.mp htags.1).2.2 _ (List.mem_map_of_mem hlive) _ (List.mem_map_of_mem hx)
      (of_decide_eq_true htag).symm
  simp only [execDiscard, taken_idle hidle, if_neg hmode, ← harg, tagOfByte_tagByte hne, hstack,
    pendingTagged_self htags he]

end

/-- Settles O26: the tag is dead, of an entry in service, or of a pending entry, and that ends by its notice. -/
theorem discardRemovesAPendingEntry : Obligations.DiscardRemovesAPendingEntry := by
  intro s hidle htags
  refine ⟨execDiscard_config hidle, execDiscard_dead hidle, fun hmode e he => execDiscard_serving hidle hmode htags he,
    fun hmode i e he harg => ?_⟩
  have hdiscard : exec .discard s = .next (s.discardEntry i e) := execDiscard_pending hidle hmode htags he harg
  rw [hdiscard]
  exact ⟨fun h => congrArg _ (discardEntry_silent h), fun n hsource hfresh =>
    ⟨fun hroom => congrArg _ (discardEntry_notified hsource hfresh hroom),
      fun hfull => congrArg _ (discardEntry_refused hsource hfresh hfull)⟩⟩

end Sys2Proof.Machine
end

section
/-! SUPPORT. Happenings that their state does not allow (log entry 3). -/

namespace Sys2Proof.Machine

section
variable {s : State}

theorem execRestartClearStep_idle (h : s.clearing = none) : execRestartClearStep s = .next s := by
  unfold execRestartClearStep
  cases hcommand : s.command with
  | restart i => simp [State.clearing, hcommand] at h
  | idle | stop | retire => rfl

theorem execRetireWalkStep_idle (h : s.retiring = none) : execRetireWalkStep s = .next s := by
  unfold execRetireWalkStep
  cases hcommand : s.command with
  | retire n i => simp [State.retiring, hcommand] at h
  | idle | stop | restart => rfl

theorem admissionHeld_eq_true (h : s.retiring ≠ none) : s.admissionHeld = true := by
  unfold State.admissionHeld
  cases hcommand : s.command with
  | retire n i => rfl
  | idle | stop | restart => simp [State.retiring, hcommand] at h

theorem execAdmissionTake_idle (h : s.holding = none ∨ s.retiring ≠ none) : execAdmissionTake s = .next s := by
  unfold execAdmissionTake
  cases hholding : s.holding with
  | none => rfl
  | some r => exact if_pos (admissionHeld_eq_true (h.resolve_left (by simp [hholding])))

theorem execFrameTransmitted_elsewhere (h : s.link ≠ .send) : execFrameTransmitted s = .next s := by
  unfold execFrameTransmitted
  split
  next hlink _ => exact absurd hlink h
  next => rfl

theorem execReplyWaitExpiry_elsewhere (h : s.link ≠ .wait) : execReplyWaitExpiry s = .next s := by
  unfold execReplyWaitExpiry
  split
  next hlink _ => exact absurd hlink h
  next => rfl

theorem execReplyReceived_elsewhere (h : s.link ≠ .read) (ldi : List Bool) : execReplyReceived ldi s = .next s := by
  unfold execReplyReceived
  split
  next hlink _ _ => exact absurd hlink h
  next => rfl

theorem execFramingError_elsewhere (h : s.link ≠ .read) (ldi : List Bool) : execFramingError ldi s = .next s := by
  unfold execFramingError
  split
  next hlink _ => exact absurd hlink h
  next => rfl

theorem execDrainEnd_elsewhere (h : s.link ≠ .drain) : execDrainEnd s = .next s := by
  unfold execDrainEnd
  split
  next hlink _ => exact absurd hlink h
  next => rfl

/-- A start bit is taken in WAIT, in window bit time 1 to the reply wait, and nowhere else (R103). -/
theorem execStartBit_elsewhere {k : Nat} (h : ¬ (s.link = .wait ∧ 1 ≤ k ∧ k ≤ s.slotWait)) :
    execStartBit k s = .next s :=
  if_neg h

end

/-- Settles O3: each happening by the test that it fails. -/
theorem happeningsOutOfPlaceChangeNothing : Obligations.HappeningsOutOfPlaceChangeNothing := by
  intro s
  refine ⟨execRestartClearStep_idle, execRetireWalkStep_idle, fun h => if_neg ?_, execFrameTransmitted_elsewhere,
    fun h => ⟨execReplyWaitExpiry_elsewhere h, fun k => execStartBit_elsewhere fun hwait => h hwait.1⟩,
    fun k h => execStartBit_elsewhere ?_,
    fun h ldi => ⟨execReplyReceived_elsewhere h ldi, execFramingError_elsewhere h ldi⟩, execDrainEnd_elsewhere,
    fun h => if_neg h, execAdmissionTake_idle, fun c h => if_neg h⟩
  · rintro ⟨hmode, hlink⟩
    exact h.elim (absurd hmode) (absurd hlink)
  · rintro ⟨-, hfirst, hlast⟩
    omega

end Sys2Proof.Machine
end

section
/-! SUPPORT. The two walks over the Pending Table (R39, R41, R162): what one step does, and what a whole walk has done. -/

namespace Sys2Proof.Machine

/-! ## One step -/

theorem nextSlot_of_lt {i j : Fin 32} (hj : j.val = i.val + 1) : nextSlot i = some j := by
  have hlt : i.val + 1 < 32 := hj ▸ j.isLt
  exact (dif_pos hlt).trans (congrArg some (Fin.ext hj.symm))

theorem setSlot_self (s : State) (i : Fin 32) : s.setSlot i s.table[i] = s := by
  have htable : s.table.set i s.table[i] = s.table := Vector.set_getElem_self i.isLt
  rw [State.setSlot, htable]

section
variable {s : State} {n : Node} {i j : Fin 32}

theorem exec_restartClearStep_inner (hcommand : s.command = .restart i) (hj : j.val = i.val + 1) :
    exec .restartClearStep s = .next { s with table := s.table.set i none, command := .restart j } := by
  change execRestartClearStep s = _
  simp only [execRestartClearStep, hcommand, nextSlot_of_lt hj]
  rfl

theorem exec_restartClearStep_last (hcommand : s.command = .restart 31) :
    exec .restartClearStep s =
      .next { s with table := s.table.set 31 none, command := .idle, lastTag := 63, res := .ok } := by
  change execRestartClearStep s = _
  simp only [execRestartClearStep, hcommand]
  rfl

theorem exec_retireWalkStep_inner (hcommand : s.command = .retire n i) (hj : j.val = i.val + 1) :
    exec .retireWalkStep s = .next { s.purgeSlot n i with command := .retire n j } := by
  change execRetireWalkStep s = _
  simp only [execRetireWalkStep, hcommand, nextSlot_of_lt hj]

theorem purgeSlot_removes {e : Entry} (he : s.table[i] = some e) (hsource : e.source = n.castSucc) :
    s.purgeSlot n i = { s with table := s.table.set i none } := by
  have hnone : s.table[i].filter (fun e => decide (e.source ≠ n.castSucc)) = none := by simp [he, hsource]
  rw [purgeSlot_eq, hnone]

theorem purgeSlot_leaves (h : ∀ e, s.table[i] = some e → e.source ≠ n.castSucc) : s.purgeSlot n i = s := by
  have hkept : s.table[i].filter (fun e => !e.ofNode n) = s.table[i] := by
    cases hslot : s.table[i] with
    | none => rfl
    | some e =>
      have hother : ¬ e.ofNode n = true := mt (ofNode_iff n).mp (h e hslot)
      simp [hother]
  rw [State.purgeSlot, hkept, setSlot_self]

end

/-- Settles O37: a step of either walk, and the purge by what its slot holds. -/
theorem walkStepsVisitOneSlot : Obligations.WalkStepsVisitOneSlot := by
  intro s n i j hj
  refine ⟨fun hcommand => exec_restartClearStep_inner hcommand hj, exec_restartClearStep_last, fun hcommand => ?_⟩
  rw [exec_retireWalkStep_inner hcommand hj]
  refine ⟨fun e he hsource => ?_, fun h => ?_⟩
  · rw [purgeSlot_removes he hsource]
  · rw [purgeSlot_leaves]
    rintro e he
    rcases h with hempty | ⟨f, hf, hother⟩
    · cases hempty.symm.trans he
    · cases hf.symm.trans he
      exact hother

/-! ## A whole walk -/

/-- `c` walks the Pending Table under the Line Map `lines`: with its next slot at `i` the Command Unit is `unit i`, and the step
puts `visit` of what the slot holds in its place; the step at slot 31 also puts `tag` of the last allocated tag in its place, writes
OK and clears BUSY. -/
structure SlotWalk (c : Instr) (unit : Fin 32 → CommandUnit) (visit : Option Entry → Option Entry) (tag : Tag → Tag)
    (lines : Vector (Vector LineConfig 8) 16) : Prop where
  inner : ∀ (s : State) (i j : Fin 32), s.lineMap = lines → s.command = unit i → j.val = i.val + 1 →
    exec c s = .next { s with table := s.table.set i (visit s.table[i]), command := unit j }
  last : ∀ s : State, s.lineMap = lines → s.command = unit 31 →
    exec c s = .next { s with
      table := s.table.set 31 (visit s.table[(31 : Fin 32)]), command := .idle, lastTag := tag s.lastTag, res := .ok }

theorem table_set_getElem (table : Vector (Option Entry) 32) (i j : Fin 32) (x : Option Entry) :
    (table.set i x)[j] = if j = i then x else table[j] := by
  simp [Vector.getElem_set, Fin.ext_iff, eq_comm]

/-- The `k` steps from slot `32 - k` on have visited that slot and every one above it. -/
theorem SlotWalk.run {c : Instr} {unit : Fin 32 → CommandUnit} {visit : Option Entry → Option Entry} {tag : Tag → Tag}
    {s : State} (hwalk : SlotWalk c unit visit tag s.lineMap) {i : Fin 32} {k : Nat} {rest : List Instr}
    (hk : i.val + (k + 1) = 32) (hcommand : s.command = unit i) (hpending : s.pending = List.replicate (k + 1) c ++ rest) :
    ∃ table : Vector (Option Entry) 32,
      Sys2Proof.core.run (k + 1) s =
        .next { s with table, command := .idle, lastTag := tag s.lastTag, res := .ok, pending := rest } ∧
      ∀ j : Fin 32, table[j] = if i ≤ j then visit s.table[j] else s.table[j] := by
  induction k generalizing s i with
  | zero =>
    obtain rfl : i = 31 := Fin.ext (by omega)
    refine ⟨_, run_front hpending (hwalk.last { s with pending := rest } rfl hcommand) 0, fun j => ?_⟩
    refine (table_set_getElem s.table 31 j (visit s.table[(31 : Fin 32)])).trans ?_
    by_cases hj : j = 31
    · rw [if_pos hj, if_pos hj.ge, hj]
    · rw [if_neg hj, if_neg (by omega)]
  | succ k ih =>
    obtain ⟨j, hj⟩ : ∃ j : Fin 32, j.val = i.val + 1 := ⟨⟨i.val + 1, by omega⟩, rfl⟩
    have hfirst := hwalk.inner { s with pending := List.replicate (k + 1) c ++ rest } i j rfl hcommand hj
    obtain ⟨table, hrun, htable⟩ := ih (i := j)
      (s := { s with
        table := s.table.set i (visit s.table[i]), command := unit j, pending := List.replicate (k + 1) c ++ rest })
      hwalk (by omega) rfl rfl
    refine ⟨table, (run_front hpending hfirst (k + 1)).trans hrun, fun l => ?_⟩
    rw [htable, table_set_getElem]
    by_cases hl : l = i
    · have hbelow : ¬ j ≤ i := by omega
      simp [hl, hbelow]
    · have hle : j ≤ l ↔ i ≤ l := by omega
      simp [hl, hle]

theorem restart_slotWalk (lines : Vector (Vector LineConfig 8) 16) :
    SlotWalk .restartClearStep .restart (fun _ => none) (fun _ => 63) lines where
  inner _ _ _ _ := exec_restartClearStep_inner
  last _ _ := exec_restartClearStep_last

/-- Settles O38: RESTART leaves stack and queue empty and keeps what it does not write, and its walk empties every slot. -/
theorem restartLeavesTheDeviceEmpty : Obligations.RestartLeavesTheDeviceEmpty := by
  intro s rest hidle hpending
  have hbegin := run_front hpending (taken_idle (s := { s with pending := _ }) hidle) 32
  obtain ⟨table, hrun, htable⟩ := (restart_slotWalk s.lineMap).run
    (s := State.beginRestart { s with pending := List.replicate 32 .restartClearStep ++ rest }) (i := 0) (k := 31) rfl rfl
    rfl
  have hempty (i : Fin 32) : table[i] = none := (htable i).trans (if_pos (Fin.zero_le i))
  refine ⟨_, hbegin.trans hrun, rfl, hempty, liveTags_eq_nil hempty rfl, ?_, rfl, rfl, rfl, rfl, rfl, rfl, rfl, rfl⟩
  rw [State.poolCount, pendingEntries_eq_nil hempty]
  rfl

theorem retire_slotWalk (n : Node) {lines : Vector (Vector LineConfig 8) 16} (hdisabled : lines[15][6].enable = false) :
    SlotWalk .retireWalkStep (.retire n) (fun o => o.filter fun e => decide (e.source ≠ n.castSucc)) id lines where
  inner s i j _ hcommand hj := by rw [exec_retireWalkStep_inner hcommand hj, purgeSlot_eq]
  last s hlines hcommand := by
    subst hlines
    have hpost : (s.purgeSlot n 31).postCommandDone = .ok (s.purgeSlot n 31) := post_disabled hdisabled
    rw [exec_retireWalkStep_last hcommand, endRetire_ok hpost, purgeSlot_eq]
    rfl

/-- Settles O42: the whole walk from slot 0, COMMAND_DONE dropped on its disabled line. -/
theorem retireWalkRemovesTheNodesEntries : Obligations.RetireWalkRemovesTheNodesEntries := by
  intro s n rest hcommand hdisabled hpending
  obtain ⟨table, hrun, htable⟩ :=
    (retire_slotWalk n hdisabled).run (s := s) (i := 0) (k := 31) rfl hcommand hpending
  refine ⟨table, hrun, fun i => (htable i).trans (if_pos (Fin.zero_le i))⟩

end Sys2Proof.Machine
end

section
/-! SUPPORT. What becomes of live entries: how many there are of a kind, and the updates that add none (R23, R34, R36, R69 to
R73). -/

namespace Sys2Proof.Machine

/-! ## Lists that shrink -/

section
variable {α β γ : Type} {R : α → β → Prop} {l : List α} {m : List β}

theorem countP_le_of_shrunk {p : α → Bool} {q : β → Bool} (hpq : ∀ a b, R a b → p a = true → q b = true)
    (h : List.SublistForall₂ R l m) : l.countP p ≤ m.countP q := by
  induction h with
  | nil => exact Nat.zero_le _
  | @cons a b l m hab _ ih =>
    by_cases ha : p a = true
    · rw [List.countP_cons_of_pos ha, List.countP_cons_of_pos (hpq a b hab ha)]
      exact Nat.succ_le_succ ih
    · rw [List.countP_cons_of_neg ha]
      exact ih.trans (List.sublist_cons_self b m).countP_le
  | cons_right _ ih => exact ih.trans (List.sublist_cons_self _ _).countP_le

theorem forall_of_shrunk {P : α → Prop} {Q : β → Prop} (hPQ : ∀ a b, R a b → Q b → P a)
    (h : List.SublistForall₂ R l m) (hm : ∀ b ∈ m, Q b) : ∀ a ∈ l, P a := by
  induction h with
  | nil => exact List.forall_mem_nil _
  | cons hab _ ih =>
    obtain ⟨hb, hm⟩ := List.forall_mem_cons.mp hm
    exact List.forall_mem_cons.mpr ⟨hPQ _ _ hab hb, ih hm⟩
  | cons_right _ ih => exact ih (List.forall_mem_cons.mp hm).2

theorem pairwise_of_shrunk {P : α → α → Prop} {Q : β → β → Prop}
    (hPQ : ∀ a a' b b', R a b → R a' b' → Q b b' → P a a') (h : List.SublistForall₂ R l m) (hm : m.Pairwise Q) :
    l.Pairwise P := by
  induction h with
  | nil => exact .nil
  | cons hab htail ih =>
    obtain ⟨hhead, hm⟩ := List.pairwise_cons.mp hm
    exact List.pairwise_cons.mpr ⟨forall_of_shrunk (fun a' b' hab' => hPQ _ a' _ b' hab hab') htail hhead, ih hm⟩
  | cons_right _ ih => exact ih (List.pairwise_cons.mp hm).2

theorem length_le_of_shrunk (h : List.SublistForall₂ R l m) : l.length ≤ m.length := by
  simpa using countP_le_of_shrunk (p := fun _ => true) (q := fun _ => true) (fun _ _ _ => id) h

theorem sublist_shrunk {R : α → α → Prop} (hrefl : ∀ a, R a a) {l m : List α} (h : List.Sublist l m) :
    List.SublistForall₂ R l m :=
  List.sublistForall₂_iff.mpr ⟨l, List.forall₂_same.mpr fun a _ => hrefl a, h⟩

theorem map_shrunk {R : α → α → Prop} {f : α → α} (hf : ∀ a, R (f a) a) (l : List α) :
    List.SublistForall₂ R (l.map f) l :=
  List.sublistForall₂_iff.mpr ⟨l, List.forall₂_map_left_iff.mpr (List.forall₂_same.mpr fun a _ => hf a), .refl l⟩

theorem trans_shrunk {R : α → α → Prop} (htrans : ∀ a b c, R a b → R b c → R a c) {l m k : List α}
    (hlm : List.SublistForall₂ R l m) (hmk : List.SublistForall₂ R m k) : List.SublistForall₂ R l k := by
  have : IsTrans α R := ⟨htrans⟩
  exact (List.SublistForall₂.is_trans (Rₐ := R)).trans _ _ _ hlm hmk

end

/-! ## Entries that come from entries -/

/-- `e'` is what `e` has become: the same occurrence, which once stale stays stale (R21). -/
structure Entry.From (e' e : Entry) : Prop where
  tag : e'.tag = e.tag
  source : e'.source = e.source
  line : e'.line = e.line
  kind : e'.kind = e.kind
  fresh : e'.stale = false → e.stale = false

theorem Entry.From.refl (e : Entry) : e.From e := ⟨rfl, rfl, rfl, rfl, id⟩

theorem Entry.From.trans {a b c : Entry} (hab : a.From b) (hbc : b.From c) : a.From c :=
  ⟨hab.tag.trans hbc.tag, hab.source.trans hbc.source, hab.line.trans hbc.line, hab.kind.trans hbc.kind,
    hbc.fresh ∘ hab.fresh⟩

theorem markStale_from (e : Entry) : e.markStale.From e := ⟨rfl, rfl, rfl, rfl, fun h => by cases h⟩

/-- A stack entry keeps its captured level, and once released stays released (R69, R73). -/
structure StackEntry.From (x' x : StackEntry) : Prop where
  entry : x'.entry.From x.entry
  level : x'.level = x.level
  unreleased : x'.released = false → x.released = false

theorem StackEntry.From.refl (x : StackEntry) : x.From x := ⟨.refl _, rfl, id⟩

theorem StackEntry.From.trans {a b c : StackEntry} (hab : a.From b) (hbc : b.From c) : a.From c :=
  ⟨hab.entry.trans hbc.entry, hab.level.trans hbc.level, hbc.unreleased ∘ hab.unreleased⟩

/-- From `s` to `t` no entry is new: each pending entry comes from that of its slot, and the stack entries, in their order, from
stack entries. -/
structure State.Shrinks (s t : State) : Prop where
  table : ∀ i : Fin 32, ∀ e' ∈ t.table[i], ∃ e ∈ s.table[i], e'.From e
  stack : List.SublistForall₂ StackEntry.From t.stack s.stack

theorem stack_shrunk_refl (l : List StackEntry) : List.SublistForall₂ StackEntry.From l l :=
  sublist_shrunk .refl (.refl l)

namespace State.Shrinks

variable {s t u : State}

theorem trans (hst : s.Shrinks t) (htu : t.Shrinks u) : s.Shrinks u where
  table i e'' he'' := by
    obtain ⟨e', he', hfrom'⟩ := htu.table i e'' he''
    obtain ⟨e, he, hfrom⟩ := hst.table i e' he'
    exact ⟨e, he, hfrom'.trans hfrom⟩
  stack := trans_shrunk (fun _ _ _ => .trans) htu.stack hst.stack

theorem same (hkept : (t.table, t.stack) = (s.table, s.stack)) : s.Shrinks t := by
  obtain ⟨htable, hstack⟩ := Prod.mk.inj hkept
  exact ⟨fun i e he => ⟨e, htable ▸ he, .refl e⟩, hstack ▸ stack_shrunk_refl _⟩

theorem setSlot {i : Fin 32} {x : Option Entry} (hx : ∀ e' ∈ x, ∃ e ∈ s.table[i], e'.From e) :
    s.Shrinks (s.setSlot i x) where
  table j e' he' := by
    rw [State.setSlot_table, table_set_getElem] at he'
    split at he'
    next hj => exact hj ▸ hx e' he'
    next => exact ⟨e', he', .refl e'⟩
  stack := stack_shrunk_refl _

theorem clearSlot (s : State) (i : Fin 32) : s.Shrinks (s.setSlot i none) := setSlot (by simp)

theorem rewriteSlot {i : Fin 32} {e e' : Entry} (he : s.table[i] = some e) (hfrom : e'.From e) :
    s.Shrinks (s.setSlot i (some e')) :=
  setSlot (by
    rintro _ ⟨⟩
    exact ⟨e, he, hfrom⟩)

theorem mapPending {f : Entry → Option Entry} (hf : ∀ e, ∀ e' ∈ f e, e'.From e) (s : State) :
    s.Shrinks (s.mapPending f) where
  table i e' he' := by
    have hslot : (s.mapPending f).table[i] = s.table[i].bind f := mapSlots_getElem ..
    obtain ⟨e, he, hfe⟩ := Option.bind_eq_some_iff.mp (hslot ▸ he')
    exact ⟨e, he, hf e e' hfe⟩
  stack := stack_shrunk_refl _

theorem withStack {stack : List StackEntry} (h : List.SublistForall₂ StackEntry.From stack s.stack) :
    s.Shrinks { s with stack } :=
  ⟨fun _ e he => ⟨e, he, .refl e⟩, h⟩

theorem removeStacked (s : State) (tag : Tag) : s.Shrinks (s.removeStacked tag) :=
  withStack (sublist_shrunk .refl List.eraseP_sublist)

theorem markStacked (s : State) (n : Node) : s.Shrinks (s.markStacked n) :=
  withStack (map_shrunk (fun x => by
    split
    · exact ⟨markStale_from _, rfl, id⟩
    · exact .refl x) _)

theorem markReleased (s : State) (src : Source) (line : Line) :
    s.Shrinks { s with stack := markReleased src line s.stack } := by
  refine withStack ?_
  rcases markReleased_spec src line s.stack with ⟨below, x, above, hstack, -, -, -, hmarked⟩ | ⟨-, hmarked⟩
  · rw [hmarked, hstack]
    refine List.sublistForall₂_iff.mpr ⟨below ++ x :: above, ?_, .refl _⟩
    have hsame (l : List StackEntry) : List.Forall₂ StackEntry.From l l := List.forall₂_same.mpr fun x _ => .refl x
    exact List.rel_append (hsame below) (.cons ⟨.refl _, rfl, fun h => by cases h⟩ (hsame above))
  · rw [hmarked]
    exact stack_shrunk_refl _

theorem dismissWork (s : State) (n : Node) : s.Shrinks (s.dismissWork n) := by
  refine (mapPending (fun e e' he' => ?_) s).trans ((markStacked _ n).trans (same rfl))
  split at he'
  · split at he'
    · cases he'
      exact markStale_from e
    · cases he'
  · cases he'
    exact .refl e

theorem purgeSlot (s : State) (n : Node) (i : Fin 32) : s.Shrinks (s.purgeSlot n i) :=
  setSlot fun e' he' => ⟨e', (Option.filter_eq_some_iff.mp he').1, .refl e'⟩

/-- The pending entries, in the order of their slots. -/
theorem pendingEntries (h : s.Shrinks t) : List.SublistForall₂ Entry.From t.pendingEntries s.pendingEntries := by
  have hslots : List.Forall₂ (fun o' o : Option Entry => ∀ e' ∈ o', ∃ e ∈ o, e'.From e) t.table.toList s.table.toList :=
    List.forall₂_iff_get.mpr ⟨by simp, fun i hi _ => h.table ⟨i, by simpa using hi⟩⟩
  have hfull {l' l : List (Option Entry)} (hl : List.Forall₂ (fun o' o => ∀ e' ∈ o', ∃ e ∈ o, e'.From e) l' l) :
      List.SublistForall₂ Entry.From (l'.filterMap id) (l.filterMap id) := by
    induction hl with
    | nil => exact .nil
    | @cons o' o l' l hslot _ ih =>
      cases o' with
      | none =>
        cases o with
        | none => exact ih
        | some e => exact .cons_right ih
      | some e' =>
        obtain ⟨e, rfl, hfrom⟩ := hslot e' rfl
        exact .cons hfrom ih
  exact hfull hslots

end State.Shrinks

/-! ## How many live entries there are of a kind -/

/-- How many entries in the Pending Table and on the Service Stack satisfy `p`. -/
def State.tally (s : State) (p : Entry → Bool) : Nat := s.pendingEntries.countP p + s.stack.countP fun x => p x.entry

section
variable {s t : State} {p : Entry → Bool}

theorem poolCount_eq_tally (s : State) : s.poolCount = s.tally Entry.remote := rfl

theorem heldCredits_eq_tally (s : State) (n : Node) :
    s.heldCredits n = s.tally (·.creditOf n) + s.queue.countP (·.doneFor n) := rfl

theorem count_liveTags (s : State) (tag : Tag) : s.liveTags.count tag = s.tally fun e => decide (e.tag = tag) := by
  simp only [State.liveTags, State.tally, List.count_eq_countP, List.countP_append, List.countP_map, Function.comp_def,
    beq_eq_decide]

theorem tally_setSlot (s : State) (p : Entry → Bool) (i : Fin 32) (x : Option Entry) :
    (s.setSlot i x).tally p + s.table[i].toList.countP p = s.tally p + x.toList.countP p := by
  have hset : ((s.table.toList.set i x).filterMap id).countP p + s.table[i].toList.countP p =
      (s.table.toList.filterMap id).countP p + x.toList.countP p :=
    countP_filterMap_set p x (by simp)
  simp only [State.tally, State.pendingEntries, State.setSlot_stack, State.setSlot_table, Vector.toList_set]
  omega

theorem tally_fillSlot {i : Fin 32} (hempty : s.table[i] = none) (e : Entry) :
    (s.setSlot i (some e)).tally p = s.tally p + (p e).toNat := by
  have hset := tally_setSlot s p i (some e)
  rw [hempty] at hset
  refine hset.trans (congrArg (s.tally p + ·) ?_)
  cases h : p e <;> simp [h]

theorem tally_clearSlot {i : Fin 32} {e : Entry} (he : s.table[i] = some e) :
    (s.setSlot i none).tally p + (p e).toNat = s.tally p := by
  have hset := tally_setSlot s p i none
  rw [he] at hset
  refine .trans (congrArg ((s.setSlot i none).tally p + ·) ?_) hset
  cases h : p e <;> simp [h]

theorem tally_push (s : State) (p : Entry → Bool) (e : Entry) (level : Level) :
    (s.push e level).tally p = s.tally p + (p e).toNat := by
  have hlast : [({ entry := e, level, released := false } : StackEntry)].countP (fun x => p x.entry) = (p e).toNat := by
    cases h : p e <;> simp [h]
  rw [State.tally, State.push_stack, List.countP_append, hlast, ← Nat.add_assoc]
  rfl

theorem tally_removeStacked {x : StackEntry} (hx : s.stackTagged x.entry.tag = some x) :
    (s.removeStacked x.entry.tag).tally p + (p x.entry).toNat = s.tally p := by
  obtain ⟨-, below, above, hstack, hbelow⟩ := stackTagged_split hx
  have hcons : (x :: above).countP (fun x => p x.entry) = above.countP (fun x => p x.entry) + (p x.entry).toNat := by
    rw [List.countP_cons]
    cases h : p x.entry <;> simp
  simp only [State.tally, removeStacked_middle s below above x hstack hbelow, hstack, List.countP_append, hcons,
    State.pendingEntries, State.removeStacked_table]
  omega

theorem State.Shrinks.tally_le (h : s.Shrinks t) (hp : ∀ e' e : Entry, e'.From e → p e' = true → p e = true) :
    t.tally p ≤ s.tally p :=
  Nat.add_le_add (countP_le_of_shrunk hp h.pendingEntries)
    (countP_le_of_shrunk (fun x' x hfrom => hp x'.entry x.entry hfrom.entry) h.stack)

end

end Sys2Proof.Machine
end

section
/-! SUPPORT. Tags (R23): each operation and each command keeps those of the live entries distinct and not 0. -/

namespace Sys2Proof.Machine

/-- R23, by how many entries hold each tag. -/
theorem tagsUnique_iff {s : State} :
    s.TagsUnique ↔
      (∀ tag, (s.tally fun e => decide (e.tag = tag)) ≤ 1) ∧ (s.tally fun e => decide (e.tag = 0)) = 0 ∧ s.lastTag ≠ 0 := by
  simp only [State.TagsUnique, List.nodup_iff_count_le_one, ← List.count_eq_zero, count_liveTags]

theorem tally_tag_eq_zero {s : State} {tag : Tag} :
    (s.tally fun e => decide (e.tag = tag)) = 0 ↔ s.tagLive tag = false := by
  rw [← count_liveTags, List.count_eq_zero, tagLive_eq_false_iff]

/-- Tags that are unique in `s` are so in `t`. -/
structure KeepsTags (s t : State) : Prop where
  unique : s.TagsUnique → t.TagsUnique

theorem KeepsTags.trans {s t u : State} (hst : KeepsTags s t) (htu : KeepsTags t u) : KeepsTags s u :=
  ⟨htu.unique ∘ hst.unique⟩

/-- What leaves the live entries and the last allocated tag alone keeps tags unique. -/
theorem KeepsTags.same {s t : State} (hkept : (t.table, t.stack, t.lastTag) = (s.table, s.stack, s.lastTag)) :
    KeepsTags s t where
  unique htags := by
    simp only [Prod.mk.injEq] at hkept
    obtain ⟨htable, hstack, hlast⟩ := hkept
    simpa only [State.TagsUnique, State.liveTags, State.pendingEntries, htable, hstack, hlast] using htags

/-! ## The operations -/

section
variable {s t : State}

theorem keepsTags_of_tally_le (h : ∀ tag, (t.tally fun e => decide (e.tag = tag)) ≤ s.tally fun e => decide (e.tag = tag))
    (hlast : t.lastTag = s.lastTag) : KeepsTags s t where
  unique htags := by
    obtain ⟨hone, hzero, hne⟩ := tagsUnique_iff.mp htags
    exact tagsUnique_iff.mpr ⟨fun tag => (h tag).trans (hone tag), Nat.eq_zero_of_le_zero (hzero ▸ h 0), hlast ▸ hne⟩

theorem State.Shrinks.keepsTags (h : s.Shrinks t) (hlast : t.lastTag = s.lastTag) : KeepsTags s t :=
  keepsTags_of_tally_le
    (fun _ => h.tally_le fun _ _ hfrom htag => decide_eq_true (hfrom.tag.symm.trans (of_decide_eq_true htag))) hlast

/-- One more live entry, under a tag that no live entry holds. -/
theorem tagsUnique_of_added {e : Entry} (htags : s.TagsUnique) (hadded : ∀ p, t.tally p = s.tally p + (p e).toNat)
    (hdead : s.tagLive e.tag = false) (hne : e.tag ≠ 0) (hlast : t.lastTag ≠ 0) : t.TagsUnique := by
  obtain ⟨hone, hzero, -⟩ := tagsUnique_iff.mp htags
  refine tagsUnique_iff.mpr ⟨fun tag => ?_, ?_, hlast⟩
  · rw [hadded]
    by_cases htag : e.tag = tag
    · simp [← htag, tally_tag_eq_zero.mpr hdead]
    · simpa [htag] using hone tag
  · rw [hadded, hzero, decide_eq_false hne]
    rfl

theorem insertEntry_keepsTags {src : Source} {line : Line} {kind : Kind} {payload : List Byte} {repost : Bool}
    (h : s.insertEntry src line kind payload repost = .ok t) : KeepsTags s t := by
  obtain ⟨i, tag, hslot, htag, rfl⟩ := insertEntry_ok h
  exact ⟨fun htags => tagsUnique_of_added htags (fun _ => tally_fillSlot (freeSlot_some hslot) _) (nextTag_not_live htag)
    (nextTag_ne_zero htag) (nextTag_ne_zero htag)⟩

theorem merged_from (e : Entry) (count : Nat) (payload : List Byte) : Entry.From { e with count, payload } e :=
  ⟨rfl, rfl, rfl, rfl, id⟩

theorem post_keepsTags {line : Line} {payload : List Byte} (h : s.post line payload = .ok t) : KeepsTags s t := by
  rcases post_ok h with ⟨-, rfl⟩ | ⟨i, e, -, hpending, rfl⟩ | ⟨-, -, hinsert⟩
  · exact .same rfl
  · exact (State.Shrinks.rewriteSlot (findPending_some hpending).1 (merged_from e _ _)).keepsTags rfl
  · exact insertEntry_keepsTags hinsert

theorem postAll_keepsTags {cs : List LocalCondition} {s : State} (h : cs.foldlM State.postCondition s = .ok t) :
    KeepsTags s t := by
  induction cs generalizing s with
  | nil =>
    cases h
    exact .same rfl
  | cons c cs ih =>
    obtain ⟨u, hc, hcs⟩ := bind_ok h
    exact (post_keepsTags hc).trans (ih hcs)

theorem endStop_keepsTags (h : s.endStop = .ok t) : KeepsTags s t := by
  obtain ⟨u, hraised, h⟩ := bind_ok h
  obtain ⟨v, hdone, h⟩ := bind_ok h
  cases h
  have hcleared : KeepsTags s { s with raised := [] } := .same rfl
  exact ((hcleared.trans (postAll_keepsTags hraised)).trans (post_keepsTags hdone)).trans (.same rfl)

theorem endRetire_keepsTags (h : s.endRetire = .ok t) : KeepsTags s t := by
  obtain ⟨u, hdone, h⟩ := bind_ok h
  cases h
  exact (post_keepsTags hdone).trans (.same rfl)

theorem completeEntry_keepsTags {x : StackEntry} (h : s.completeEntry x = .ok t) : KeepsTags s t := by
  have hremoved : KeepsTags s (s.removeStacked x.entry.tag) := (State.Shrinks.removeStacked s _).keepsTags rfl
  have hdone (n : Node) : KeepsTags s (s.endWithDone x n) := by
    unfold State.endWithDone
    split
    · exact .same rfl
    · exact hremoved.trans (.same rfl)
  unfold State.completeEntry at h
  cases hcase : x.endCase with
  | localEntry | staleEntry =>
    rw [hcase] at h
    cases h
    exact hremoved.trans (.same rfl)
  | edgeEntry n | releasedEntry n =>
    rw [hcase] at h
    cases h
    exact hdone n
  | repostEntry =>
    rw [hcase] at h
    obtain ⟨u, hinsert, h⟩ := bind_ok h
    cases h
    have hout : KeepsTags u (u.removeStacked x.entry.tag) := (State.Shrinks.removeStacked u _).keepsTags rfl
    exact ((insertEntry_keepsTags hinsert).trans hout).trans (.same rfl)

theorem clearSlot_keepsTags (s : State) (i : Fin 32) : KeepsTags s (s.setSlot i none) :=
  (State.Shrinks.clearSlot s i).keepsTags rfl

theorem notify_keepsTags (s : State) (e : Entry) (outcome : DoneOutcome) : KeepsTags s (s.notify e outcome) := by
  unfold State.notify
  split <;> exact .same rfl

theorem discardEntry_keepsTags (s : State) (i : Fin 32) (e : Entry) : KeepsTags s (s.discardEntry i e) := by
  unfold State.discardEntry
  split
  · exact .same rfl
  · exact ((clearSlot_keepsTags s i).trans (notify_keepsTags (s.setSlot i none) e _)).trans (.same rfl)

theorem dismissWork_keepsTags (s : State) (n : Node) : KeepsTags s (s.dismissWork n) :=
  (State.Shrinks.dismissWork s n).keepsTags rfl

theorem countFault_keepsTags (s : State) (n : Node) : KeepsTags s (s.countFault n) := by
  unfold State.countFault
  dsimp only
  split
  · split
    · rw [loseNode_eq]
      exact (dismissWork_keepsTags s n).trans (.same rfl)
    · exact .same rfl
  · exact .same rfl

theorem slotFault_keepsTags (s : State) (n : Node) (slot : SlotKind) : KeepsTags s (s.slotFault n slot) := by
  cases slot with
  | poll => exact countFault_keepsTags s n
  | probe => exact .same rfl

theorem badFrame_keepsTags (s : State) (n : Node) (slot : SlotKind) : KeepsTags s (s.badFrame n slot) :=
  .trans (t := s.raise (.linkFault n)) (.same rfl) (slotFault_keepsTags _ n slot)

theorem hello_keepsTags (s : State) (n : Node) (declared : Fin 9) : KeepsTags s (s.hello n declared) := by
  have hjoin : KeepsTags s (s.joinRequest n declared) := by
    unfold State.joinRequest
    split <;> exact .same rfl
  have hrestart : KeepsTags s (s.restartNode n declared) := by
    rw [restartNode_eq]
    split <;> exact (dismissWork_keepsTags s n).trans (.same rfl)
  unfold State.hello
  cases s.nodes[n].state with
  | absent | lost =>
    dsimp only
    split
    · exact hjoin
    · exact .same rfl
  | active => exact hrestart
  | joining | leaving => exact .same rfl

/-- The first set of changes of RETIRE marks entries stale and removes none (R38). -/
theorem beginRetire_shrinks (s : State) (n : Node) : s.Shrinks (s.beginRetire n) := by
  have hmarked : ∀ e : Entry, ∀ e' ∈ some (if e.ofNode n then e.markStale else e), e'.From e := by
    rintro e _ ⟨⟩
    split
    · exact markStale_from e
    · exact .refl e
  have hrecord : s.Shrinks
      ((s.setNode n { s.nodes[n] with state := .leaving, join := false, admittedLimit := 0 }).removeDones n) := .same rfl
  exact (hrecord.trans (.markStacked _ n)).trans ((State.Shrinks.mapPending hmarked _).trans (.same rfl))

theorem beginRetire_keepsTags (s : State) (n : Node) : KeepsTags s (s.beginRetire n) :=
  (beginRetire_shrinks s n).keepsTags (by rw [beginRetire_eq])

end

/-! ## Admission -/

section
variable {s t : State} {n : Node} {line : Line} {payload : List Byte}

theorem applyRow_keepsTags {row : EventRow} (htested : s.RowTested n row) (h : s.applyRow row n line payload = .ok t) :
    KeepsTags s t := by
  cases row with
  | row2b | row3b => exact insertEntry_keepsTags h
  | row2a slot e =>
    cases h
    exact (State.Shrinks.rewriteSlot htested (merged_from e _ _)).keepsTags rfl
  | row5a slot e =>
    cases h
    exact (clearSlot_keepsTags s slot).trans (.same rfl)
  | row5c =>
    cases h
    exact (State.Shrinks.markReleased s n.source line).keepsTags rfl
  | row1a | row1b | row2c | row3a | row3c | row4 | row5b | row5d =>
    cases h
    exact .same rfl

section
variable {seq : Seq} {more : Bool} {kind : EventKind}

theorem decideEvent_keepsTags (h : s.decideEvent n seq more kind line payload = .ok t) : KeepsTags s t := by
  obtain ⟨u, happly, h⟩ := bind_ok h
  have hu : KeepsTags s u := applyRow_keepsTags (eventRow_tested s n line kind) happly
  split at h
  · cases h
    exact hu.trans (.same rfl)
  · cases h
    split <;> exact hu.trans (.same rfl)

theorem sequenceFault_keepsTags {atOnce : Bool} (h : s.sequenceFault n atOnce = .ok t) : KeepsTags s t := by
  have hcounted := countFault_keepsTags s n
  unfold State.sequenceFault at h
  dsimp only at h
  split at h
  · exact hcounted.trans (post_keepsTags h)
  · have hlost : KeepsTags s { s.countFault n with freeCount := s.freeCount + 1 } := hcounted.trans (.same rfl)
    split at h
    · exact hlost.trans (post_keepsTags h)
    · cases h
      exact hlost.trans (.same rfl)

theorem judgeEvent_keepsTags (h : s.judgeEvent n seq more kind line payload = .ok t) : KeepsTags s t := by
  unfold State.judgeEvent at h
  dsimp only at h
  split at h
  · exact decideEvent_keepsTags h
  · split at h
    · cases h
      exact .same rfl
    · exact sequenceFault_keepsTags h

end

theorem handleReply_keepsTags {r : ReplyRecord} (h : s.handleReply r = .ok t) : KeepsTags s t := by
  unfold State.handleReply at h
  split at h
  case h_1 =>
    cases h
    exact hello_keepsTags s _ _
  case h_4 =>
    cases h
    split <;> exact .same rfl
  case h_5 =>
    split at h
    · exact judgeEvent_keepsTags h
    · cases h
      exact .same rfl
  all_goals
    cases h
    exact .same rfl

end

/-! ## The claim, the link and the Scheduler -/

section
variable (s : State)

/-- An ordinary claim moves its entry from the Pending Table to the stack under the same tag (R65). -/
theorem claimOrdinary_keepsTags {i : Fin 32} {e e' : Entry} (he : s.table[i] = some e) (htag : e'.tag = e.tag) :
    KeepsTags s (s.claimOrdinary i e') := by
  refine keepsTags_of_tally_le (fun tag => le_of_eq ?_) rfl
  have hpush : ((s.claimOrdinary i e').tally fun e => decide (e.tag = tag)) = _ :=
    tally_push (s.setSlot i none) (fun e => decide (e.tag = tag)) e' (s.lineLevel e')
  rw [hpush, htag]
  exact tally_clearSlot (p := fun e => decide (e.tag = tag)) he

theorem reportTransmission_keepsTags (f : TxFrame) : KeepsTags s (s.reportTransmission f) := by
  unfold State.reportTransmission
  cases f.kind with
  | admitFrame | eject =>
    dsimp only
    split <;> exact .same rfl
  | done | poll | probe => exact .same rfl

/-- A choice touches no live entry (R115). -/
theorem choose_keepsTags : KeepsTags s s.choose := by
  have hpoll {t u : State} (h : t.PollChoice u) : KeepsTags t u := by cases h <;> exact .same rfl
  by_cases hcount : 2 ≤ s.outCount
  · exact hpoll (choose_pollChoice (stepOutbound_passes (.inl hcount)))
  · have hroom : s.outCount < 2 := not_le.mp hcount
    cases hhead : takeHead s.nodes s.queue with
    | none =>
      have hemptied : KeepsTags s { s with queue := [] } := .same rfl
      exact hemptied.trans (hpoll (choose_pollChoice (stepOutbound_empties hroom hhead)))
    | some head =>
      rw [choose_outbound (stepOutbound_loads hroom hhead)]
      exact .same rfl

theorem pinReset_keepsTags : KeepsTags s s.pinReset := ⟨fun _ => safetyHoldsAtReset.tagsUnique⟩

/-! ## The commands -/

theorem execClaim_keepsTags : EveryNext (KeepsTags s) (execClaim s) := by
  unfold execClaim
  split
  next => exact .next (.same rfl)
  next slot e _ =>
    exact .next (((clearSlot_keepsTags s slot).trans (notify_keepsTags (s.setSlot slot none) e _)).trans (.same rfl))
  next hordinary =>
    obtain ⟨-, e, hwinner, rfl⟩ := claimDecision_ordinary_winner hordinary
    exact .next (claimOrdinary_keepsTags s (winner_spec hwinner).1 (by rw [markAtClaim_eq]))

theorem execStop_keepsTags : EveryNext (KeepsTags s) (execStop s) := by
  refine .taken (.same rfl) ?_
  split
  · split
    · exact .next (.same rfl)
    · exact .settle fun _ => endStop_keepsTags
  · exact .next (.same rfl)

/-- RESTART takes every entry off the stack (R162). -/
theorem execRestart_keepsTags : EveryNext (KeepsTags s) (execRestart s) := by
  have hshrinks : s.Shrinks s.beginRestart := ⟨fun _ e he => ⟨e, he, .refl e⟩, .nil⟩
  exact .taken (.same rfl) (.next (hshrinks.keepsTags rfl))

/-- The last step of the walk leaves 63 as the last allocated tag (R41). -/
theorem execRestartClearStep_keepsTags : EveryNext (KeepsTags s) (execRestartClearStep s) := by
  unfold execRestartClearStep
  cases s.command with
  | restart i =>
    dsimp only
    split
    · exact .next ((clearSlot_keepsTags s i).trans (.same rfl))
    · refine .next ⟨fun htags => ?_⟩
      obtain ⟨hnodup, hzero, -⟩ := (clearSlot_keepsTags s i).unique htags
      have hlast : (63 : Tag) ≠ 0 := by decide
      exact ⟨hnodup, hzero, hlast⟩
  | idle | stop | retire => exact .next (.same rfl)

theorem execComplete_keepsTags : EveryNext (KeepsTags s) (execComplete s) := by
  refine .taken (.same rfl) ?_
  split
  · exact .next (.same rfl)
  · split
    · exact .next (.same rfl)
    · exact .settle fun _ => completeEntry_keepsTags

theorem execCompleteTop_keepsTags : EveryNext (KeepsTags s) (execCompleteTop s) := by
  refine .taken (.same rfl) ?_
  split
  · exact .next (.same rfl)
  · split
    · exact .next (.same rfl)
    · exact .settle fun _ h =>
        .trans (t := { s with arg0 := tagByte _ }) (.same rfl) (completeEntry_keepsTags h)

theorem execDiscard_keepsTags : EveryNext (KeepsTags s) (execDiscard s) := by
  refine .taken (.same rfl) ?_
  split
  · exact .next (.same rfl)
  · split
    · exact .next (.same rfl)
    · split
      · exact .next (.same rfl)
      · split
        · exact .next (.same rfl)
        · exact .next (discardEntry_keepsTags s _ _)

theorem execGetEntry_keepsTags : EveryNext (KeepsTags s) (execGetEntry s) := by
  refine .taken (.same rfl) ?_
  split
  · exact .next (.same rfl)
  · split
    · exact .next (.same rfl)
    · split <;> exact .next (.same rfl)

theorem execSetLine_keepsTags : EveryNext (KeepsTags s) (execSetLine s) := by
  refine .taken (.same rfl) ?_
  split
  · exact .next (.same rfl)
  · dsimp only
    split <;> exact .next (.same rfl)

theorem execSetNode_keepsTags : EveryNext (KeepsTags s) (execSetNode s) := by
  refine .taken (.same rfl) ?_
  split
  · exact .next (.same rfl)
  · split <;> exact .next (.same rfl)

theorem execSetLink_keepsTags : EveryNext (KeepsTags s) (execSetLink s) := by
  refine .taken (.same rfl) ?_
  split
  · split <;> exact .next (.same rfl)
  · exact .next (.same rfl)

theorem execRetire_keepsTags : EveryNext (KeepsTags s) (execRetire s) := by
  refine .taken (.same rfl) ?_
  split
  · exact .next (.same rfl)
  · split
    · exact .next (.same rfl)
    · split
      · exact .next (.same rfl)
      · split
        · exact .next (.same rfl)
        · exact .next (beginRetire_keepsTags s _)

theorem execRetireWalkStep_keepsTags : EveryNext (KeepsTags s) (execRetireWalkStep s) := by
  unfold execRetireWalkStep
  cases s.command with
  | retire n i =>
    have hpurged : KeepsTags s (s.purgeSlot n i) := (State.Shrinks.purgeSlot s n i).keepsTags rfl
    dsimp only
    split
    · exact .next (hpurged.trans (.same rfl))
    · exact .settle fun _ h => hpurged.trans (endRetire_keepsTags h)
  | idle | stop | restart => exact .next (.same rfl)

theorem execPinReset_keepsTags (periods : Nat) : EveryNext (KeepsTags s) (execPinReset periods s) := by
  unfold execPinReset
  split
  · exact .next (pinReset_keepsTags s)
  · dsimp only
    split
    · exact .next (.trans (t := { s with freeCount := s.freeCount + 1 }) (.same rfl) (pinReset_keepsTags _))
    · exact .next (.same rfl)

theorem execSchedulerChoice_keepsTags : EveryNext (KeepsTags s) (execSchedulerChoice s) := by
  unfold execSchedulerChoice
  split
  · exact .next (choose_keepsTags s)
  · exact .next (.same rfl)

theorem execFrameTransmitted_keepsTags : EveryNext (KeepsTags s) (execFrameTransmitted s) := by
  unfold execFrameTransmitted
  split
  · exact .next ((reportTransmission_keepsTags s _).trans (.same rfl))
  · exact .next (.same rfl)

theorem execReplyWaitExpiry_keepsTags : EveryNext (KeepsTags s) (execReplyWaitExpiry s) := by
  unfold execReplyWaitExpiry
  split
  · exact .next ((slotFault_keepsTags s _ _).trans (.same rfl))
  · exact .next (.same rfl)

theorem execStartBit_keepsTags (k : Nat) : EveryNext (KeepsTags s) (execStartBit k s) := by
  unfold execStartBit
  split <;> exact .next (.same rfl)

theorem execReplyReceived_keepsTags (ldi : List Bool) : EveryNext (KeepsTags s) (execReplyReceived ldi s) := by
  have hgood (s : State) (r : ReplyRecord) : KeepsTags s (s.goodReply r) := by
    unfold State.goodReply
    split <;> exact .same rfl
  unfold execReplyReceived
  split
  next bytes _ _ _ _ =>
    have hassembled : KeepsTags s (s.assemble bytes) := .same rfl
    dsimp only
    split
    · exact .next ((hassembled.trans (hgood _ _)).trans (.same rfl))
    · exact .next ((hassembled.trans (badFrame_keepsTags _ _ _)).trans (.same rfl))
  next => exact .next (.same rfl)

theorem execFramingError_keepsTags (ldi : List Bool) : EveryNext (KeepsTags s) (execFramingError ldi s) := by
  unfold execFramingError
  split <;> exact .next (.same rfl)

theorem execDrainEnd_keepsTags : EveryNext (KeepsTags s) (execDrainEnd s) := by
  unfold execDrainEnd
  split
  · exact .next ((badFrame_keepsTags s _ _).trans (.same rfl))
  · exact .next (.same rfl)

theorem execGuardEnd_keepsTags : EveryNext (KeepsTags s) (execGuardEnd s) := by
  have hended : KeepsTags s { s.enterLink .idle 0 with txBuffer := none } := .same rfl
  unfold execGuardEnd
  split
  · dsimp only
    split
    · exact .settle fun _ h => hended.trans (endStop_keepsTags h)
    · exact .next hended
  · exact .next (.same rfl)

theorem execAdmissionTake_keepsTags : EveryNext (KeepsTags s) (execAdmissionTake s) := by
  unfold execAdmissionTake
  split
  · exact .next (.same rfl)
  · split
    · exact .next (.same rfl)
    · exact .settle fun _ h => .trans (t := { s with holding := none }) (.same rfl) (handleReply_keepsTags h)

theorem execLocalPosting_keepsTags (c : LocalCondition) : EveryNext (KeepsTags s) (execLocalPosting c s) := by
  unfold execLocalPosting
  split
  · exact .settle fun _ h => .trans (t := { s with raised := s.raised.erase c }) (.same rfl) (post_keepsTags h)
  · exact .next (.same rfl)

theorem run_keepsTags (c : CmdCode) : EveryNext (KeepsTags s) (c.run s) := by
  cases c with
  | start | resume => exact .taken (.same rfl) (by split <;> exact .next (.same rfl))
  | getLine | getNode => exact .taken (.same rfl) (by split <;> exact .next (.same rfl))
  | stop => exact execStop_keepsTags s
  | restart => exact execRestart_keepsTags s
  | complete => exact execComplete_keepsTags s
  | completeTop => exact execCompleteTop_keepsTags s
  | discard => exact execDiscard_keepsTags s
  | getEntry => exact execGetEntry_keepsTags s
  | setLine => exact execSetLine_keepsTags s
  | setNode => exact execSetNode_keepsTags s
  | retire => exact execRetire_keepsTags s
  | setLink => exact execSetLink_keepsTags s

theorem execBadCmd_keepsTags (code : Byte) : EveryNext (KeepsTags s) (execBadCmd code s) := by
  unfold execBadCmd
  split
  · exact .taken (.same rfl) (.next (.same rfl))
  · exact run_keepsTags s _

theorem execRegisterWrite_keepsTags (addr : BitVec 4) (value : Byte) :
    EveryNext (KeepsTags s) (execRegisterWrite addr value s) := by
  unfold execRegisterWrite
  cases Reg.ofAddr addr with
  | arg i =>
    refine .taken (.same rfl) (.next ?_)
    unfold State.setArg
    split <;> exact .same rfl
  | cmdRes => exact execBadCmd_keepsTags s value
  | lven reg => cases reg <;> exact .next (.same rfl)
  | floor | stat | claim | cwSrc | cwLvl | cwFlg | cwPl0 | cwPl1 | top => exact .next (.same rfl)

/-- Every command, well-formed or not, keeps tags unique. -/
theorem exec_keepsTags (c : Instr) : EveryNext (KeepsTags s) (exec c s) := by
  cases c with
  | statRead | floorWrite value => exact .next (.same rfl)
  | lvenWrite reg value => cases reg <;> exact .next (.same rfl)
  | claim => exact execClaim_keepsTags s
  | registerWrite addr value => exact execRegisterWrite_keepsTags s addr value
  | badCmd code => exact execBadCmd_keepsTags s code
  | start => exact run_keepsTags s .start
  | stop => exact run_keepsTags s .stop
  | resume => exact run_keepsTags s .resume
  | restart => exact run_keepsTags s .restart
  | complete => exact run_keepsTags s .complete
  | completeTop => exact run_keepsTags s .completeTop
  | discard => exact run_keepsTags s .discard
  | getEntry => exact run_keepsTags s .getEntry
  | setLine => exact run_keepsTags s .setLine
  | getLine => exact run_keepsTags s .getLine
  | setNode => exact run_keepsTags s .setNode
  | getNode => exact run_keepsTags s .getNode
  | setLink => exact run_keepsTags s .setLink
  | retire => exact run_keepsTags s .retire
  | restartClearStep => exact execRestartClearStep_keepsTags s
  | retireWalkStep => exact execRetireWalkStep_keepsTags s
  | pinReset periods => exact execPinReset_keepsTags s periods
  | schedulerChoice => exact execSchedulerChoice_keepsTags s
  | frameTransmitted => exact execFrameTransmitted_keepsTags s
  | replyWaitExpiry => exact execReplyWaitExpiry_keepsTags s
  | replyReceived ldi => exact execReplyReceived_keepsTags s ldi
  | drainEnd => exact execDrainEnd_keepsTags s
  | guardEnd => exact execGuardEnd_keepsTags s
  | admissionTake => exact execAdmissionTake_keepsTags s
  | localPosting c => exact execLocalPosting_keepsTags s c
  | startBit k => exact execStartBit_keepsTags s k
  | framingError ldi => exact execFramingError_keepsTags s ldi

end

/-- Settles O7: an idle step keeps the state, and a command taken from the queue keeps tags unique. -/
theorem stepKeepsTagsUnique : Obligations.StepKeepsTagsUnique := by
  intro s t htags hstep
  unfold step at hstep
  split at hstep
  next =>
    cases hstep
    exact htags
  next c rest _ => exact (exec_keepsTags { s with pending := rest } c t hstep).unique htags

end Sys2Proof.Machine
end

section
/-! SUPPORT. The laws of `State.Safe`, operation by operation: what each shared operation asks of a state that keeps them to leave
one that does. -/

namespace Sys2Proof.Machine

/-- The laws hold, and the mode is not CONFIG: what the blocks' happenings find and leave (R158). -/
structure State.Underway (s : State) : Prop extends s.Safe where
  outside : s.mode ≠ .config

/-! ## What the laws say in use -/

section
variable {s : State}

theorem linePending_eq_false {src : Source} {line : Line} :
    s.linePending src line = false ↔ ∀ e ∈ s.pendingEntries, ¬ (e.source = src ∧ e.line = line) := by
  simp [State.linePending, Entry.on]

/-- R128 outside CONFIG: RESTART's clear runs in CONFIG alone. -/
theorem State.Underway.credits (h : s.Underway) (n : Node) :
    s.heldCredits n ≤ s.nodes[n].admittedLimit.val ∧ (s.nodes[n].state ≠ .active → s.heldCredits n = 0) := by
  obtain ⟨-, -, -, hclearing⟩ := h.modeConsistent
  refine h.creditsBounded ?_ n
  by_contra hwalk
  exact h.outside (hclearing hwalk)

/-- A node with a slot in its credit limit for one more occurrence (R26). -/
def State.CreditFor (s : State) (n : Node) : Prop :=
  s.nodes[n].state = .active ∧ s.heldCredits n < s.nodes[n].admittedLimit.val

theorem creditOf_iff {e : Entry} {n : Node} : e.creditOf n = true ↔ e.source = n.castSucc ∧ e.stale = false := by
  simp [Entry.creditOf, ofNode_iff]

theorem Entry.From.creditOf {e' e : Entry} (h : e'.From e) {n : Node} (hcredit : e'.creditOf n = true) :
    e.creditOf n = true := by
  obtain ⟨hsource, hfresh⟩ := creditOf_iff.mp hcredit
  exact creditOf_iff.mpr ⟨h.source.symm.trans hsource, h.fresh hfresh⟩

theorem Entry.From.remote {e' e : Entry} (h : e'.From e) (hremote : e'.remote = true) : e.remote = true := by
  rwa [Entry.remote, ← h.source]

theorem StackEntry.From.holding {x' x : StackEntry} (h : x'.From x) (hholding : x'.Holding) : x.Holding := by
  obtain ⟨hkind, hfresh, hkept⟩ := hholding
  exact ⟨h.entry.kind.symm.trans hkind, h.entry.fresh hfresh, h.unreleased hkept⟩

theorem markStale_legal {e : Entry} {n : Node} (hnode : e.ofNode n = true) (h : e.Legal) : e.markStale.Legal := by
  obtain ⟨hlow, hhigh, hpayload, hheld, hlocal, hrepost⟩ := h
  refine ⟨hlow, hhigh, hpayload, hheld, fun hsource => ?_, hrepost⟩
  have hn : n.castSucc = localSource := ((ofNode_iff n).mp hnode).symm.trans hsource
  exact absurd (congrArg Fin.val hn) n.isLt.ne

end

/-! ## Entries that age or go -/

section
variable {s t : State}

theorem State.Shrinks.heldCredits_le (h : s.Shrinks t) (hqueue : List.Sublist t.queue s.queue) (n : Node) :
    t.heldCredits n ≤ s.heldCredits n :=
  Nat.add_le_add (h.tally_le fun _ _ hfrom => hfrom.creditOf) hqueue.countP_le

theorem State.Shrinks.heldBlocks (h : s.Shrinks t) (hblocks : s.HeldBlocks) : t.HeldBlocks := by
  obtain ⟨hpending, hstack⟩ := hblocks
  refine ⟨forall_of_shrunk (fun x' x hfrom hx hholding => ?_) h.stack hpending,
    pairwise_of_shrunk (fun a a' b b' hab hab' hb ha ha' hline => ?_) h.stack hstack⟩
  · rw [hfrom.entry.source, hfrom.entry.line, linePending_eq_false]
    exact forall_of_shrunk (fun e' e hfrom he => by rwa [hfrom.source, hfrom.line]) h.pendingEntries
      (linePending_eq_false.mp (hx (hfrom.holding hholding)))
  · rw [hab.entry.source, hab.entry.line, hab'.entry.source, hab'.entry.line] at hline
    exact hb (hab.holding ha) (hab'.holding ha') hline

/-- Entries that age or go keep every law, but that the ageing must leave entries legal, and a stale HELD entry pending only
where the RETIRE walk comes by. -/
theorem State.Safe.shrink (h : s.Safe) (hshrinks : s.Shrinks t) (hkept : t = { s with table := t.table, stack := t.stack })
    (hlegal : t.EntriesLegal) (hstale : t.StaleHeldRetiring) : t.Safe := by
  obtain ⟨table, stack, rfl⟩ : ∃ table stack, t = { s with table, stack } := ⟨_, _, hkept⟩
  obtain ⟨hdepth, hordered⟩ := h.stackOrdered
  obtain ⟨hpendingKinds, hstackKinds⟩ := h.kindsAgree
  exact { h with
    stackOrdered := ⟨(length_le_of_shrunk hshrinks.stack).trans hdepth,
      pairwise_of_shrunk (fun a a' b b' hab hab' hlt => by rwa [hab.level, hab'.level]) hshrinks.stack hordered⟩
    poolBounded := (hshrinks.tally_le fun _ _ hfrom => hfrom.remote).trans h.poolBounded
    linesUnique := pairwise_of_shrunk
      (fun a a' b b' hab hab' hne => by rwa [hab.source, hab.line, hab'.source, hab'.line]) hshrinks.pendingEntries
      h.linesUnique
    tagsUnique := (hshrinks.keepsTags rfl).unique h.tagsUnique
    kindsAgree :=
      ⟨forall_of_shrunk (fun e' e hfrom he => by rwa [hfrom.kind, hfrom.source, hfrom.line]) hshrinks.pendingEntries
        hpendingKinds,
      forall_of_shrunk (fun x' x hfrom hx => by rwa [hfrom.entry.kind, hfrom.entry.source, hfrom.entry.line])
        hshrinks.stack hstackKinds⟩
    entriesLegal := hlegal
    heldBlocks := hshrinks.heldBlocks h.heldBlocks
    staleHeldRetiring := hstale
    creditsBounded := fun hclearing n => by
      obtain ⟨hle, hzero⟩ := h.creditsBounded hclearing n
      have hheld := hshrinks.heldCredits_le (.refl _) n
      exact ⟨hheld.trans hle, fun hinactive => Nat.eq_zero_of_le_zero (hheld.trans_eq (hzero hinactive))⟩
    configEmpty := fun hmode => by
      obtain ⟨hstack, hqueue, hholding, hraised, hnodes, hlink, hbuffer, hslots⟩ := h.configEmpty hmode
      have hnil : stack = [] := List.length_eq_zero_iff.mp
        (Nat.eq_zero_of_le_zero ((length_le_of_shrunk hshrinks.stack).trans_eq (congrArg List.length hstack)))
      refine ⟨hnil, hqueue, hholding, hraised, hnodes, hlink, hbuffer, fun i hfull => hslots i ?_⟩
      obtain ⟨e', he'⟩ := Option.ne_none_iff_exists'.mp hfull
      obtain ⟨e, he, -⟩ := hshrinks.table i e' he'
      exact Option.ne_none_iff_exists'.mpr ⟨e, he⟩ }

/-- Entries taken out keep every law. -/
theorem State.Safe.remove (h : s.Safe) (htable : ∀ (i : Fin 32) (e : Entry), t.table[i] = some e → s.table[i] = some e)
    (hstack : List.Sublist t.stack s.stack) (hkept : t = { s with table := t.table, stack := t.stack }) : t.Safe := by
  obtain ⟨hpendingLegal, hstackLegal⟩ := h.entriesLegal
  have hretiring : t.retiring = s.retiring := (congrArg State.retiring hkept).trans rfl
  refine h.shrink ⟨fun i e he => ⟨e, htable i e he, .refl e⟩, sublist_shrunk .refl hstack⟩ hkept
    ⟨fun e he => ?_, fun x hx => hstackLegal x (hstack.subset hx)⟩ fun i e he => ?_
  · obtain ⟨i, hi⟩ := mem_pendingEntries.mp he
    exact hpendingLegal e (mem_pendingEntries.mpr ⟨i, htable i e hi⟩)
  · rw [hretiring]
    exact h.staleHeldRetiring i e (htable i e he)

theorem State.Safe.clearSlot (h : s.Safe) (i : Fin 32) : (s.setSlot i none).Safe := by
  refine h.remove (fun j e he => ?_) (.refl _) rfl
  rw [State.setSlot_table, table_set_getElem] at he
  split at he
  · cases he
  · exact he

theorem State.Safe.removeStacked (h : s.Safe) (tag : Tag) : (s.removeStacked tag).Safe :=
  h.remove (fun _ _ he => he) List.eraseP_sublist rfl

theorem purgeSlot_getElem (s : State) (n : Node) (i j : Fin 32) :
    (s.purgeSlot n i).table[j] = if j = i then s.table[i].filter (fun e => !e.ofNode n) else s.table[j] :=
  table_set_getElem ..

theorem State.Safe.purgeSlot (h : s.Safe) (n : Node) (i : Fin 32) : (s.purgeSlot n i).Safe := by
  refine h.remove (fun j e he => ?_) (.refl _) rfl
  rw [purgeSlot_getElem] at he
  split at he
  next hj => exact hj ▸ (Option.filter_eq_some_iff.mp he).1
  next => exact he

/-- A merge into an EDGE entry keeps every law, with the count and the payload in their ranges (R29, R30). -/
theorem State.Safe.merge (h : s.Safe) {i : Fin 32} {e : Entry} (he : s.table[i] = some e) (hedge : e.kind = .edge)
    {payload : List Byte} (hpayload : payload.length ≤ 2) :
    (s.setSlot i (some { e with count := countUp e.count, payload })).Safe := by
  obtain ⟨hpendingLegal, hstackLegal⟩ := h.entriesLegal
  have hslot (j : Fin 32) (e' : Entry)
      (he' : (s.setSlot i (some { e with count := countUp e.count, payload })).table[j] = some e') :
      (j = i ∧ e' = { e with count := countUp e.count, payload }) ∨ s.table[j] = some e' := by
    rw [State.setSlot_table, table_set_getElem] at he'
    split at he'
    next hj => exact .inl ⟨hj, (Option.some.inj he').symm⟩
    next => exact .inr he'
  refine h.shrink (.rewriteSlot he (merged_from e _ _)) rfl ⟨fun e' he' => ?_, hstackLegal⟩ fun j e' he' hheld hstale => ?_
  · obtain ⟨j, hj⟩ := mem_pendingEntries.mp he'
    rcases hslot j e' hj with ⟨-, rfl⟩ | hold
    · obtain ⟨hlow, hhigh, -, -, hlocal, hrepost⟩ := hpendingLegal e (mem_pendingEntries.mpr ⟨i, he⟩)
      refine ⟨?_, Nat.min_le_right _ _, hpayload, fun hheld => ?_, hlocal, hrepost⟩
      · simp only [countUp, Config.countMax]
        omega
      · cases hedge.symm.trans hheld
    · exact hpendingLegal e' (mem_pendingEntries.mpr ⟨j, hold⟩)
  · rcases hslot j e' he' with ⟨-, rfl⟩ | hold
    · cases hedge.symm.trans hheld
    · exact h.staleHeldRetiring j e' hold hheld hstale

/-- The released mark keeps every law: it falls on HELD entries only (R73). -/
theorem State.Safe.markReleased (h : s.Safe) (src : Source) (line : Line) :
    State.Safe { s with stack := markReleased src line s.stack } := by
  obtain ⟨hpendingLegal, hstackLegal⟩ := h.entriesLegal
  refine h.shrink (.markReleased s src line) rfl ⟨hpendingLegal, ?_⟩ h.staleHeldRetiring
  rcases markReleased_spec src line s.stack with ⟨below, x, above, hstack, -, hheld, -, hmarked⟩ | ⟨-, hmarked⟩
  · rw [hstack] at hstackLegal
    simp only [hmarked]
    simp only [List.forall_mem_append, List.forall_mem_cons] at hstackLegal ⊢
    obtain ⟨hbelow, ⟨hx, -⟩, habove⟩ := hstackLegal
    exact ⟨hbelow, ⟨hx, fun _ => hheld⟩, habove⟩
  · simpa only [hmarked] using hstackLegal

end

/-! ## The Outbound Queue -/

section
variable {s : State}

/-- A queue that loses frames keeps the laws, if each JOINING node keeps its ADMIT and each LEAVING node its EJECT. -/
theorem State.Safe.dropFrames (h : s.Safe) {queue : List OutFrame} (hsub : List.Sublist queue s.queue)
    (hadmit : State.AdmitUnderway { s with queue }) (heject : State.EjectUnderway { s with queue }) :
    State.Safe { s with queue } :=
  { h with
    queueBounded := hsub.length_le.trans h.queueBounded
    creditsBounded := fun hclearing n => by
      obtain ⟨hle, hzero⟩ := h.creditsBounded hclearing n
      have hheld : State.heldCredits { s with queue } n ≤ s.heldCredits n := Nat.add_le_add_left hsub.countP_le _
      exact ⟨hheld.trans hle, fun hinactive => Nat.eq_zero_of_le_zero (hheld.trans_eq (hzero hinactive))⟩
    configEmpty := fun hmode => by
      obtain ⟨hstack, hqueue, hrest⟩ := h.configEmpty hmode
      exact ⟨hstack, List.sublist_nil.mp (hqueue ▸ hsub), hrest⟩
    admitUnderway := hadmit
    ejectUnderway := heject }

theorem State.Safe.removeDones (h : s.Safe) (n : Node) : (s.removeDones n).Safe := by
  have hkept {f : OutFrame} (hf : f ∈ s.queue) (hdone : f.body.kind ≠ .done) :
      f ∈ s.queue.filter fun f => !f.doneFor n :=
    List.mem_filter.mpr ⟨hf, by simp [OutFrame.doneFor, hdone]⟩
  refine h.dropFrames List.filter_sublist (fun m hjoining => ?_) fun m hleaving => ?_
  · refine (h.admitUnderway m hjoining).imp_left fun ⟨f, hf, hdest, hkind⟩ => ⟨f, hkept hf ?_, hdest, hkind⟩
    simp [hkind]
  · refine (h.ejectUnderway m hleaving).imp_left fun ⟨f, hf, hdest, hkind⟩ => ⟨f, hkept hf ?_, hdest, hkind⟩
    simp [hkind]

theorem heldCredits_append (s : State) (n m : Node) (body : OutBody) :
    (s.append n body).heldCredits m = s.heldCredits m + (decide (n = m ∧ body.kind = .done)).toNat := by
  have hlast : [({ dest := n, body } : OutFrame)].countP (·.doneFor m) = (decide (n = m ∧ body.kind = .done)).toNat := by
    by_cases hdone : n = m ∧ body.kind = .done <;> simp [OutFrame.doneFor, hdone]
  rw [heldCredits_eq_tally, State.append_queue, List.countP_append, hlast, ← Nat.add_assoc]
  rfl

/-- A frame for which there is a free slot, and, if it is a DONE, a credit. -/
theorem State.Underway.append (h : s.Underway) {n : Node} {body : OutBody} (hroom : s.queue.length < Config.queueMax)
    (hcredit : body.kind = .done → s.CreditFor n) : (s.append n body).Underway :=
  { h with
    queueBounded := by simpa [State.QueueBounded] using hroom
    creditsBounded := fun _ m => by
      obtain ⟨hle, hzero⟩ := h.credits m
      rw [heldCredits_append]
      by_cases hdone : n = m ∧ body.kind = .done
      · obtain ⟨rfl, hkind⟩ := hdone
        obtain ⟨hactive, hlt⟩ := hcredit hkind
        rw [decide_eq_true ⟨rfl, hkind⟩]
        exact ⟨hlt, absurd hactive⟩
      · rw [decide_eq_false hdone]
        exact ⟨hle, hzero⟩
    configEmpty := fun hmode => absurd hmode h.outside
    admitUnderway := fun m hjoining =>
      (h.admitUnderway m hjoining).imp_left fun ⟨f, hf, hframe⟩ => ⟨f, List.mem_append_left _ hf, hframe⟩
    ejectUnderway := fun m hleaving =>
      (h.ejectUnderway m hleaving).imp_left fun ⟨f, hf, hframe⟩ => ⟨f, List.mem_append_left _ hf, hframe⟩ }

end

/-! ## Node records and waiting conditions -/

section
variable {s : State}

theorem setNode_nodes_getElem (s : State) (n m : Node) (r : NodeRecord) :
    (s.setNode n r).nodes[m] = if m = n then r else s.nodes[m] := by
  simp [Vector.getElem_set, Fin.ext_iff, eq_comm]

/-- What holds of a written record and of the records before holds of the records after. -/
theorem forall_setNode {n : Node} {r : NodeRecord} {P : Node → NodeRecord → Prop} (hr : P n r)
    (hs : ∀ m : Node, P m s.nodes[m]) (m : Node) : P m (s.setNode n r).nodes[m] := by
  rw [setNode_nodes_getElem]
  split
  next hm => exact hm ▸ hr
  next => exact hs m

/-- A record within its ranges, whose limit covers the node's held credits, with the ADMIT of a JOINING node and the EJECT of a
LEAVING one under way. -/
theorem State.Underway.setNode (h : s.Underway) {n : Node} {r : NodeRecord} (hlegal : r.Legal)
    (hfaults : r.state = .active → r.faults < 7)
    (hcredits : s.heldCredits n ≤ r.admittedLimit.val ∧ (r.state ≠ .active → s.heldCredits n = 0))
    (hadmit : r.state = .joining → ∃ f ∈ s.queue, f.dest = n ∧ f.body.kind = .admitFrame)
    (heject : r.state = .leaving → ∃ f ∈ s.queue, f.dest = n ∧ f.body.kind = .eject) : (s.setNode n r).Underway := by
  obtain ⟨hrecords, hparameters⟩ := h.recordsLegal
  exact { h with
    recordsLegal := ⟨forall_setNode (P := fun _ r => r.Legal ∧ (r.state = .active → r.faults < 7)) ⟨hlegal, hfaults⟩ hrecords,
      hparameters⟩
    creditsBounded := fun _ => forall_setNode
      (P := fun m r => s.heldCredits m ≤ r.admittedLimit.val ∧ (r.state ≠ .active → s.heldCredits m = 0)) hcredits h.credits
    configEmpty := fun hmode => absurd hmode h.outside
    admitUnderway := forall_setNode (P := fun m r => r.state = .joining →
      (∃ f ∈ s.queue, f.dest = m ∧ f.body.kind = .admitFrame) ∨
        (s.link = .send ∧ ∃ f ∈ s.txBuffer, f.dest = m ∧ f.kind = .admitFrame)) (.inl ∘ hadmit) h.admitUnderway
    ejectUnderway := forall_setNode (P := fun m r => r.state = .leaving →
      (∃ f ∈ s.queue, f.dest = m ∧ f.body.kind = .eject) ∨
        (s.link = .send ∧ ∃ f ∈ s.txBuffer, f.dest = m ∧ f.kind = .eject)) (.inl ∘ heject) h.ejectUnderway }

/-- A record written that leaves the node's state and its admitted limit. -/
theorem State.Safe.updateNode (h : s.Safe) {n : Node} {r : NodeRecord} (hstate : r.state = s.nodes[n].state)
    (hlimit : r.admittedLimit = s.nodes[n].admittedLimit) (hlegal : r.Legal)
    (hfaults : r.state = .active → r.faults < 7) : (s.setNode n r).Safe := by
  obtain ⟨hrecords, hparameters⟩ := h.recordsLegal
  have hsame (m : Node) :
      (s.setNode n r).nodes[m].state = s.nodes[m].state ∧ (s.setNode n r).nodes[m].admittedLimit = s.nodes[m].admittedLimit :=
    forall_setNode (P := fun m r => r.state = s.nodes[m].state ∧ r.admittedLimit = s.nodes[m].admittedLimit) ⟨hstate, hlimit⟩
      (fun _ => ⟨rfl, rfl⟩) m
  exact { h with
    recordsLegal := ⟨forall_setNode (P := fun _ r => r.Legal ∧ (r.state = .active → r.faults < 7)) ⟨hlegal, hfaults⟩ hrecords,
      hparameters⟩
    creditsBounded := fun hclearing m => by
      rw [(hsame m).1, (hsame m).2]
      exact h.creditsBounded hclearing m
    configEmpty := fun hmode => by
      obtain ⟨hstack, hqueue, hholding, hraised, hnodes, hrest⟩ := h.configEmpty hmode
      exact ⟨hstack, hqueue, hholding, hraised, fun m => (hsame m).1.trans (hnodes m), hrest⟩
    admitUnderway := fun m hjoining => h.admitUnderway m ((hsame m).1.symm.trans hjoining)
    ejectUnderway := fun m hleaving => h.ejectUnderway m ((hsame m).1.symm.trans hleaving) }

theorem State.Safe.withRaised (h : s.Safe) {raised : List LocalCondition} (hraised : s.mode = .config → raised = []) :
    State.Safe { s with raised } :=
  { h with
    configEmpty := fun hmode => by
      obtain ⟨hstack, hqueue, hholding, -, hrest⟩ := h.configEmpty hmode
      exact ⟨hstack, hqueue, hholding, hraised hmode, hrest⟩ }

theorem State.Underway.raise (h : s.Underway) (c : LocalCondition) : (s.raise c).Underway :=
  { h.withRaised (absurd · h.outside) with outside := h.outside }

end

/-! ## Entries that are new -/

/-- R22, by slots. -/
theorem linesUnique_of_slots {s : State}
    (h : ∀ (i j : Fin 32) (e f : Entry), s.table[i] = some e → s.table[j] = some f → e.source = f.source → e.line = f.line →
      i = j) : s.LinesUnique := by
  refine List.pairwise_filterMap.mpr (List.pairwise_iff_getElem.mpr fun i j hi hj hlt e he f hf ⟨hsource, hline⟩ => ?_)
  have hi' : i < 32 := by simpa using hi
  have hj' : j < 32 := by simpa using hj
  have hsame := h ⟨i, hi'⟩ ⟨j, hj'⟩ e f (by simpa using he) (by simpa using hf) hsource hline
  exact hlt.ne (congrArg Fin.val hsame)

/-- An entry that may join the live entries of a state: its tag is free, it is legal and of its line's kind, and if it is remote
the pool has room for it, and if it counts as a credit its node has one. -/
structure State.Admits (s : State) (e : Entry) : Prop where
  dead : s.tagLive e.tag = false
  tag : e.tag ≠ 0
  legal : e.Legal
  kind : e.kind = (s.lineConfig e.source e.line).kind
  pool : e.remote = true → s.poolCount < Config.poolMax
  credit : ∀ n, e.creditOf n = true → s.CreditFor n

section
variable {s t : State} {e : Entry}

/-- The counts of the pool and of the credits with the new entry among the live ones. -/
theorem State.Admits.poolBounded (hadmits : s.Admits e) (h : s.PoolBounded)
    (hadded : ∀ p, t.tally p = s.tally p + (p e).toNat) : t.PoolBounded := by
  rw [State.PoolBounded, poolCount_eq_tally, hadded]
  cases hremote : e.remote with
  | true => exact hadmits.pool hremote
  | false => exact h

theorem State.Admits.credits (hadmits : s.Admits e) (h : s.Underway)
    (hadded : ∀ p, t.tally p = s.tally p + (p e).toNat) (hkept : (t.queue, t.nodes) = (s.queue, s.nodes)) (n : Node) :
    t.heldCredits n ≤ t.nodes[n].admittedLimit.val ∧ (t.nodes[n].state ≠ .active → t.heldCredits n = 0) := by
  obtain ⟨hqueue, hnodes⟩ := Prod.mk.inj hkept
  have hheld : t.heldCredits n = s.heldCredits n + (e.creditOf n).toNat := by
    simp only [heldCredits_eq_tally, hadded, hqueue]
    omega
  rw [hheld, hnodes]
  cases hcredit : e.creditOf n with
  | true =>
    obtain ⟨hactive, hlt⟩ := hadmits.credit n hcredit
    exact ⟨hlt, absurd hactive⟩
  | false => exact h.credits n

/-- A new entry, not stale, in an empty slot, on a line that no pending entry and no condition that still holds is on. -/
theorem State.Underway.fill (h : s.Underway) (hadmits : s.Admits e) {i : Fin 32} (hempty : s.table[i] = none)
    (hfresh : e.stale = false) (hline : s.linePending e.source e.line = false)
    (hholds : ∀ x ∈ s.stack, x.Holding → ¬ (x.entry.source = e.source ∧ x.entry.line = e.line)) :
    State.Underway { s.setSlot i (some e) with lastTag := e.tag } := by
  have hadded (p : Entry → Bool) : State.tally { s.setSlot i (some e) with lastTag := e.tag } p = s.tally p + (p e).toNat :=
    tally_fillSlot hempty e
  have hslot (j : Fin 32) : (s.table.set i (some e))[j] = if j = i then some e else s.table[j] := table_set_getElem ..
  have hmem {P : Entry → Prop} (hs : ∀ f ∈ s.pendingEntries, P f) (he : P e) :
      ∀ f ∈ (s.setSlot i (some e)).pendingEntries, P f := by
    intro f hf
    obtain ⟨j, hj⟩ := mem_pendingEntries.mp hf
    rw [State.setSlot_table, hslot] at hj
    split at hj
    next => exact Option.some.inj hj ▸ he
    next => exact hs f (mem_pendingEntries.mpr ⟨j, hj⟩)
  have hlines := linePending_eq_false.mp hline
  obtain ⟨hpendingKinds, hstackKinds⟩ := h.kindsAgree
  obtain ⟨hpendingLegal, hstackLegal⟩ := h.entriesLegal
  obtain ⟨hpendingBlocks, hstackBlocks⟩ := h.heldBlocks
  exact { h with
    poolBounded := hadmits.poolBounded h.poolBounded hadded
    linesUnique := by
      refine linesUnique_of_slots fun j k a b ha hb hsource hsameLine => ?_
      change (s.table.set i (some e))[j] = some a at ha
      change (s.table.set i (some e))[k] = some b at hb
      rw [hslot] at ha hb
      split at ha <;> split at hb
      next hj hk => exact hj.trans hk.symm
      next => 
        cases ha
        exact absurd ⟨hsource.symm, hsameLine.symm⟩ (hlines b (mem_pendingEntries.mpr ⟨k, hb⟩))
      next =>
        cases hb
        exact absurd ⟨hsource, hsameLine⟩ (hlines a (mem_pendingEntries.mpr ⟨j, ha⟩))
      next => exact slot_unique h.linesUnique ha hb hsource hsameLine
    tagsUnique := tagsUnique_of_added h.tagsUnique hadded hadmits.dead hadmits.tag hadmits.tag
    kindsAgree := ⟨hmem hpendingKinds hadmits.kind, hstackKinds⟩
    entriesLegal := ⟨hmem hpendingLegal hadmits.legal, hstackLegal⟩
    heldBlocks := ⟨fun x hx hholding => linePending_eq_false.mpr (hmem
        (linePending_eq_false.mp (hpendingBlocks x hx hholding)) fun hsame =>
          hholds x hx hholding ⟨hsame.1.symm, hsame.2.symm⟩), hstackBlocks⟩
    staleHeldRetiring := fun j f hf hheld hstale => by
      rw [Option.mem_def] at hf
      change (s.table.set i (some e))[j] = some f at hf
      rw [hslot] at hf
      split at hf
      next => exact absurd (Option.some.inj hf ▸ hfresh) (by simp [hstale])
      next => exact h.staleHeldRetiring j f hf hheld hstale
    creditsBounded := fun _ => hadmits.credits h hadded rfl
    configEmpty := fun hmode => absurd hmode h.outside }

/-- A new entry on top of the stack, at a level above those under it; if its condition holds, no pending entry and no other
condition that holds is on its line. -/
theorem State.Underway.push (h : s.Underway) (hadmits : s.Admits e) {level : Level}
    (hroom : s.stack.length < Config.stackMax) (habove : ∀ x ∈ s.stack, x.level < level)
    (hline : e.kind = .held → e.stale = false → s.linePending e.source e.line = false ∧
      ∀ x ∈ s.stack, x.Holding → ¬ (x.entry.source = e.source ∧ x.entry.line = e.line)) :
    (s.push e level).Underway := by
  have hadded (p : Entry → Bool) : (s.push e level).tally p = s.tally p + (p e).toNat := tally_push s p e level
  obtain ⟨hdepth, hordered⟩ := h.stackOrdered
  obtain ⟨hpendingKinds, hstackKinds⟩ := h.kindsAgree
  obtain ⟨hpendingLegal, hstackLegal⟩ := h.entriesLegal
  obtain ⟨hpendingBlocks, hstackBlocks⟩ := h.heldBlocks
  have hmem {P : StackEntry → Prop} (hs : ∀ x ∈ s.stack, P x) (he : P ⟨e, level, false⟩) :
      ∀ x ∈ (s.push e level).stack, P x :=
    List.forall_mem_append.mpr ⟨hs, List.forall_mem_singleton.mpr he⟩
  have hpair {P : StackEntry → StackEntry → Prop} (hs : s.stack.Pairwise P) (he : ∀ x ∈ s.stack, P x ⟨e, level, false⟩) :
      (s.push e level).stack.Pairwise P :=
    List.pairwise_append.mpr ⟨hs, List.pairwise_singleton .., fun x hx => List.forall_mem_singleton.mpr (he x hx)⟩
  exact { h with
    stackOrdered := ⟨by simpa using hroom, hpair hordered habove⟩
    poolBounded := hadmits.poolBounded h.poolBounded hadded
    tagsUnique := tagsUnique_of_added h.tagsUnique hadded hadmits.dead hadmits.tag h.tagsUnique.2.2
    kindsAgree := ⟨hpendingKinds, hmem hstackKinds hadmits.kind⟩
    entriesLegal := ⟨hpendingLegal, hmem hstackLegal ⟨hadmits.legal, fun hreleased => by cases hreleased⟩⟩
    heldBlocks := ⟨hmem hpendingBlocks fun hholding => (hline hholding.1 hholding.2.1).1,
      hpair hstackBlocks fun x hx hxholding hholding => (hline hholding.1 hholding.2.1).2 x hx hxholding⟩
    creditsBounded := fun _ => hadmits.credits h hadded rfl
    configEmpty := fun hmode => absurd hmode h.outside }

end

end Sys2Proof.Machine
end

section
/-! SUPPORT. Insertions and postings under the laws: there is always a place for them (R25, R148), so none meets a fault. -/

namespace Sys2Proof.Machine

/-! ## Operations that run -/

/-- The operation meets no fault, and ends in a state with `P`. -/
def Yields (P : State → Prop) (x : Except Fault State) : Prop := ∃ t, x = .ok t ∧ P t

namespace Yields

variable {P Q : State → Prop}

theorem ok {s : State} (h : P s) : Yields P (.ok s) := ⟨s, rfl, h⟩

theorem bind {x : Except Fault State} {f : State → Except Fault State} (hx : Yields Q x)
    (hf : ∀ t, x = .ok t → Q t → Yields P (f t)) : Yields P (x >>= f) := by
  obtain ⟨t, rfl, ht⟩ := hx
  exact hf t rfl ht

theorem imp {x : Except Fault State} (h : Yields Q x) (hQP : ∀ t, Q t → P t) : Yields P x := by
  obtain ⟨t, hok, ht⟩ := h
  exact ⟨t, hok, hQP t ht⟩

end Yields

/-! ## How many entries are pending -/

section
variable {s : State}

theorem remote_eq_false_iff (e : Entry) : e.remote = false ↔ e.source = localSource := by
  have hsources : ∀ src : Source, (nodeOf src).isSome = false ↔ src = localSource := by decide
  exact hsources e.source

theorem Entry.remote_of_source {e : Entry} {n : Node} (hsource : e.source = n.castSucc) : e.remote = true := by
  rw [Entry.remote, nodeOf_eq_some_iff.mpr hsource]
  rfl

/-- The lines of the pending local entries. -/
def State.localLines (s : State) : List Line := (s.pendingEntries.filter fun e => !e.remote).map (·.line)

theorem mem_localLines {line : Line} :
    line ∈ s.localLines ↔ ∃ e ∈ s.pendingEntries, e.source = localSource ∧ e.line = line := by
  simp [State.localLines, remote_eq_false_iff, and_assoc]

/-- R22, for the local lines. -/
theorem localLines_nodup (hlines : s.LinesUnique) : s.localLines.Nodup := by
  refine List.pairwise_map.mpr ((hlines.filter _).imp_of_mem fun {a b} ha hb hne hline => ?_)
  have hlocal {e : Entry} (he : e ∈ s.pendingEntries.filter fun e => !e.remote) : e.source = localSource :=
    (remote_eq_false_iff e).mp (by simpa using (List.mem_filter.mp he).2)
  exact hne ⟨(hlocal ha).trans (hlocal hb).symm, hline⟩

theorem pendingEntries_length (s : State) :
    s.pendingEntries.length = s.pendingEntries.countP Entry.remote + s.localLines.length := by
  simpa [State.localLines, ← List.countP_eq_length_filter] using List.length_eq_countP_add_countP Entry.remote

/-- At most 24 remote entries are pending, and at most 8 local ones (R25, R148). -/
theorem State.Safe.pending_bounds (h : s.Safe) :
    s.pendingEntries.countP Entry.remote ≤ s.poolCount ∧ s.poolCount ≤ 24 ∧ s.localLines.length ≤ 8 :=
  ⟨Nat.le_add_right _ _, h.poolBounded, (localLines_nodup h.linesUnique).length_le_card⟩

theorem State.Safe.room_of_pool (h : s.Safe) (hpool : s.poolCount < Config.poolMax) :
    s.pendingEntries.length < Config.slotCount := by
  obtain ⟨hremote, -, hlocal⟩ := h.pending_bounds
  rw [pendingEntries_length]
  simp only [Config.slotCount, Config.poolMax] at hpool ⊢
  omega

theorem State.Safe.room_of_localLine (h : s.Safe) {line : Line} (hline : s.linePending localSource line = false) :
    s.pendingEntries.length < Config.slotCount := by
  obtain ⟨hremote, hpool, -⟩ := h.pending_bounds
  have hnew : line ∉ s.localLines := fun hmem => by
    obtain ⟨e, he, hon⟩ := mem_localLines.mp hmem
    exact linePending_eq_false.mp hline e he hon
  have hlocal : (line :: s.localLines).length ≤ 8 :=
    (List.nodup_cons.mpr ⟨hnew, localLines_nodup h.linesUnique⟩).length_le_card
  rw [pendingEntries_length]
  simp only [Config.slotCount, List.length_cons] at hlocal ⊢
  omega

theorem State.Safe.room_of_stacked (h : s.Safe) {x : StackEntry} (hx : x ∈ s.stack) (hremote : x.entry.remote = true) :
    s.pendingEntries.length < Config.slotCount := by
  obtain ⟨-, hpool, hlocal⟩ := h.pending_bounds
  have hstacked : 0 < s.stack.countP fun x => x.entry.remote := List.countP_pos_iff.mpr ⟨x, hx, hremote⟩
  have hsum : s.poolCount = s.pendingEntries.countP Entry.remote + s.stack.countP fun x => x.entry.remote := rfl
  rw [pendingEntries_length]
  simp only [Config.slotCount]
  omega

/-- With a slot to spare there is a place for an insertion: the live tags are fewer than 63 (R23). -/
theorem State.Safe.exists_place (h : s.Safe) (hroom : s.pendingEntries.length < Config.slotCount) :
    ∃ i t, s.freeSlot = some i ∧ s.nextTag = some t := by
  have hempty : ∃ i : Fin 32, s.table[i] = none := by
    by_contra hfull
    have hall : ∀ o ∈ s.table.toList, (id o).isSome = true := fun o ho => by
      obtain ⟨i, hi, rfl⟩ := Vector.mem_iff_getElem.mp (Vector.mem_toList_iff.mp ho)
      exact Option.isSome_iff_ne_none.mpr fun hnone => hfull ⟨⟨i, hi⟩, hnone⟩
    have hlength := List.filterMap_length_eq_length.mpr hall
    exact hroom.ne (hlength.trans (by simp [Config.slotCount]))
  have htags : s.liveTags.length < 63 := by
    have hstack := h.stackOrdered.1
    simp only [State.liveTags, List.length_append, List.length_map, Config.stackMax, Config.slotCount] at hroom hstack ⊢
    omega
  obtain ⟨i, hslot⟩ := exists_freeSlot hempty.choose_spec
  obtain ⟨t, htag⟩ := exists_nextTag htags
  exact ⟨i, t, hslot, htag⟩

end

/-! ## Insertions and local postings -/

section
variable {s : State}

/-- A new entry that may join the live ones, but for the tag, which the allocator gives it. -/
structure State.Accepts (s : State) (e : Entry) : Prop where
  legal : e.Legal
  fresh : e.stale = false
  kind : e.kind = (s.lineConfig e.source e.line).kind
  pool : e.remote = true → s.poolCount < Config.poolMax
  credit : ∀ n, e.creditOf n = true → s.CreditFor n
  line : s.linePending e.source e.line = false
  holds : ∀ x ∈ s.stack, x.Holding → ¬ (x.entry.source = e.source ∧ x.entry.line = e.line)

/-- An accepted entry in an empty slot under a free tag. -/
theorem State.Underway.place (h : s.Underway) {e : Entry} (haccepts : s.Accepts e) {i : Fin 32} {tag : Tag}
    (hempty : s.table[i] = none) (hdead : s.tagLive tag = false) (hne : tag ≠ 0) :
    State.Underway { s.setSlot i (some { e with tag }) with lastTag := tag } :=
  h.fill (e := { e with tag }) ⟨hdead, hne, haccepts.legal, haccepts.kind, haccepts.pool, haccepts.credit⟩ hempty
    haccepts.fresh haccepts.line haccepts.holds

/-- An insertion for which there is room meets no fault (R25, R148). -/
theorem State.Underway.insert (h : s.Underway) {src : Source} {line : Line} {kind : Kind} {payload : List Byte}
    (haccepts : s.Accepts ⟨0, src, line, kind, 1, payload, false, false⟩)
    (hroom : s.pendingEntries.length < Config.slotCount) :
    Yields State.Underway (s.insertEntry src line kind payload false) := by
  obtain ⟨i, tag, hslot, htag⟩ := h.exists_place hroom
  refine ⟨_, by simp only [State.insertEntry, hslot, htag], h.place haccepts (freeSlot_some hslot) (nextTag_not_live htag)
    (nextTag_ne_zero htag)⟩

/-- R6: local lines are EDGE lines. -/
theorem State.Safe.localLine_edge (h : s.Safe) (line : Line) : (s.lineConfig localSource line).kind = .edge := by
  cases hkind : (s.lineConfig localSource line).kind with
  | edge => rfl
  | held => exact absurd rfl (h.lineMapLegal localSource line hkind).2

/-- A local posting meets no fault (R148). -/
theorem State.Underway.post (h : s.Underway) {line : Line} {payload : List Byte} (hpayload : payload.length ≤ 2) :
    Yields State.Underway (s.post line payload) := by
  obtain ⟨hpendingKinds, hstackKinds⟩ := h.kindsAgree
  by_cases henable : (s.lineConfig localSource line).enable = true
  swap
  · exact ⟨s, post_disabled (Bool.eq_false_iff.mpr henable), h⟩
  simp only [State.post, if_pos henable]
  cases hon : s.pendingOn localSource line with
  | some found =>
    obtain ⟨i, e⟩ := found
    obtain ⟨he, honLine⟩ := findPending_some hon
    have hedge : e.kind = .edge := by
      obtain ⟨hsource, hline⟩ : e.source = localSource ∧ e.line = line := by simpa [Entry.on] using honLine
      rw [hpendingKinds e (mem_pendingEntries.mpr ⟨i, he⟩), hsource, h.localLine_edge]
    have hunion : (unionSets e.payload payload).length ≤ 2 := by
      simp only [unionSets, List.length_zipWith]
      omega
    exact .ok { h.merge he hedge hunion with outside := h.outside }
  | none =>
    have hnone : s.linePending localSource line = false := List.any_eq_false.mpr fun e he => by
      simpa using findPending_none.mp hon e he
    refine h.insert ⟨⟨le_rfl, Nat.one_le_ofNat, hpayload, fun _ => rfl, fun _ => ⟨rfl, rfl⟩, nofun⟩, rfl,
      (h.localLine_edge line).symm, fun hremote => ?_, fun n hcredit => ?_, hnone, fun x hx hholding hsame => ?_⟩
      (h.room_of_localLine hnone)
    · cases hremote
    · obtain ⟨hsource, -⟩ := creditOf_iff.mp hcredit
      exact absurd (Entry.remote_of_source hsource) (by simp [remote_eq_false_iff])
    · obtain ⟨hsource, -⟩ := hsame
      have hkind := hstackKinds x hx
      rw [hsource, h.localLine_edge] at hkind
      cases hkind.symm.trans hholding.1

theorem State.Underway.postCondition (h : s.Underway) (c : LocalCondition) : Yields State.Underway (s.postCondition c) :=
  h.post le_rfl

theorem State.Underway.postCommandDone (h : s.Underway) : Yields State.Underway s.postCommandDone :=
  h.post (Nat.zero_le _)

end

/-! ## The ends of STOP and RETIRE -/

/-- Whatever waits when STOP ends is posted, and PAUSED entered with the Command Unit idle (R151, R160). -/
theorem endStop_yields {raised : List LocalCondition} {s : State} (hraised : s.raised = raised)
    (h : State.Underway { s with mode := .paused, command := .idle }) : Yields State.Underway s.endStop := by
  induction raised generalizing s with
  | nil =>
    obtain ⟨t, hpost, ht⟩ := h.postCommandDone
    have hpost' : State.postCommandDone { s with mode := .paused } =
        .ok { s with mode := .paused, table := t.table, lastTag := t.lastTag } := post_transfer hpost rfl
    refine ⟨_, endStop_ok hraised hpost', ?_⟩
    rw [post_frame hpost] at ht
    exact { ht with }
  | cons c rest ih =>
    have hwaits : State.Underway { s with mode := .paused, command := .idle, raised := rest } :=
      { h.withRaised (raised := rest) nofun with outside := h.outside }
    obtain ⟨t, hpost, ht⟩ := hwaits.postCondition c
    have hpost' : State.postCondition { s with raised := rest } c =
        .ok { s with raised := rest, table := t.table, lastTag := t.lastTag } := post_transfer hpost rfl
    rw [endStop_oldest hraised hpost']
    refine ih rfl ?_
    rw [post_frame hpost] at ht
    exact { ht with }

theorem endRetire_yields {s : State} (h : State.Underway { s with command := .idle, res := .ok }) :
    Yields State.Underway s.endRetire := by
  obtain ⟨t, hpost, ht⟩ := h.postCommandDone
  have hpost' : s.postCommandDone = .ok { s with table := t.table, lastTag := t.lastTag } := post_transfer hpost rfl
  refine ⟨_, endRetire_ok hpost', ?_⟩
  rw [post_frame hpost] at ht
  exact { ht with }

/-! ## An entry that leaves its place -/

/-- `t` is `s` but for entry `e`, which is not live any more; queue and node records are those of `s`. -/
structure State.Frees (s t : State) (e : Entry) : Prop where
  tally : ∀ p : Entry → Bool, t.tally p + (p e).toNat = s.tally p
  kept : (t.queue, t.nodes) = (s.queue, s.nodes)

section
variable {s t : State} {e : Entry}

theorem clearSlot_frees {i : Fin 32} (he : s.table[i] = some e) : s.Frees (s.setSlot i none) e :=
  ⟨fun _ => tally_clearSlot he, rfl⟩

theorem removeStacked_frees {x : StackEntry} (hx : s.stackTagged x.entry.tag = some x) :
    s.Frees (s.removeStacked x.entry.tag) x.entry :=
  ⟨fun _ => tally_removeStacked hx, rfl⟩

/-- The credit that the entry held is free (R26). -/
theorem State.Frees.credit (hfrees : s.Frees t e) (h : s.Underway) {n : Node} (hcredit : e.creditOf n = true) :
    t.CreditFor n := by
  obtain ⟨hqueue, hnodes⟩ := Prod.mk.inj hfrees.kept
  obtain ⟨hle, hzero⟩ := h.credits n
  have hheld : t.heldCredits n + 1 = s.heldCredits n := by
    have htally := hfrees.tally (·.creditOf n)
    rw [hcredit] at htally
    rw [heldCredits_eq_tally, heldCredits_eq_tally, hqueue, ← htally, Bool.toNat_true]
    omega
  rw [State.CreditFor, hnodes]
  refine ⟨?_, by omega⟩
  by_contra hinactive
  have hnone := hzero hinactive
  omega

/-- The place of a remote entry in the pool is free (R25). -/
theorem State.Frees.pool (hfrees : s.Frees t e) (h : s.Safe) (hremote : e.remote = true) : t.poolCount < Config.poolMax := by
  have htally := hfrees.tally Entry.remote
  have hpool := h.poolBounded
  rw [hremote, Bool.toNat_true] at htally
  simp only [State.PoolBounded, poolCount_eq_tally] at hpool ⊢
  omega

/-- The entry's tag was the only one of its value, and not 0 (R23). -/
theorem State.Frees.tag (hfrees : s.Frees t e) (h : s.Safe) : t.tagLive e.tag = false ∧ e.tag ≠ 0 := by
  obtain ⟨hunique, hzero, -⟩ := tagsUnique_iff.mp h.tagsUnique
  refine ⟨tally_tag_eq_zero.mp ?_, fun htag => ?_⟩
  · have htally := hfrees.tally fun f => decide (f.tag = e.tag)
    have hone := hunique e.tag
    simp only [decide_true, Bool.toNat_true] at htally
    omega
  · have htally := hfrees.tally fun f => decide (f.tag = 0)
    rw [htag] at htally
    simp only [decide_true, Bool.toNat_true] at htally
    omega

theorem notice_eq_some_iff {n : Node} : e.notice = some n ↔ e.creditOf n = true := by
  rw [creditOf_iff, ← nodeOf_eq_some_iff, Entry.notice]
  cases e.stale <;> simp

/-- The DONE of an entry that ends goes out on the credit that it held. -/
theorem State.Underway.notify (h : t.Underway) (hroom : (e.notice.isSome && t.queueFull) = false)
    (hcredit : ∀ n, e.creditOf n = true → t.CreditFor n) (outcome : DoneOutcome) : (t.notify e outcome).Underway := by
  cases hnotice : e.notice with
  | none => rwa [notify_none hnotice]
  | some n =>
    rw [notify_some hnotice]
    have hfree : t.queueFull = false := by simpa [hnotice] using hroom
    exact h.append (not_le.mp (of_decide_eq_false hfree)) fun _ => hcredit n (notice_eq_some_iff.mp hnotice)

end

/-! ## Claims -/

section
variable {s : State} {e : Entry} {i : Fin 32}

theorem markAtClaim_from (s : State) (e : Entry) : (s.markAtClaim e).From e := by
  rw [markAtClaim_eq]
  exact ⟨rfl, rfl, rfl, rfl, fun hfresh => (Bool.or_eq_false_iff.mp hfresh).1⟩

theorem markAtClaim_legal (h : e.Legal) : (s.markAtClaim e).Legal := by
  cases hnode : nodeOf e.source with
  | none => rwa [State.markAtClaim, hnode]
  | some n =>
    have hsource := nodeOf_eq_some_iff.mp hnode
    simp only [State.markAtClaim, hnode]
    split
    · exact h
    · exact markStale_legal ((ofNode_iff n).mpr hsource) h

theorem State.Underway.claimAuto (h : s.Underway) (he : s.table[i] = some e) {e' : Entry} (hfrom : e'.From e)
    (hroom : (e'.notice.isSome && s.queueFull) = false) : (s.claimAuto i e').Underway := by
  have hcleared : (s.setSlot i none).Underway := { h.clearSlot i with outside := h.outside }
  have hnotified := hcleared.notify hroom (fun n hcredit => (clearSlot_frees he).credit h (hfrom.creditOf hcredit)) .serviced
  exact { hnotified with }

/-- An entry with its slot cleared leaves no pending entry on its line (R22). -/
theorem clearSlot_linePending (h : s.Safe) (he : s.table[i] = some e) :
    (s.setSlot i none).linePending e.source e.line = false := by
  refine linePending_eq_false.mpr fun f hf ⟨hsource, hline⟩ => ?_
  obtain ⟨j, hj⟩ := mem_pendingEntries.mp hf
  rw [State.setSlot_table, table_set_getElem] at hj
  split at hj
  next => cases hj
  next hne => exact hne (slot_unique h.linesUnique hj he hsource hline)

/-- R5, R31: no condition that holds is in service while an entry of its line is pending. -/
theorem State.Safe.no_holding (h : s.Safe) (he : s.table[i] = some e) {x : StackEntry} (hx : x ∈ s.stack)
    (hholding : x.Holding) : ¬ (x.entry.source = e.source ∧ x.entry.line = e.line) := fun ⟨hsource, hline⟩ => by
  obtain ⟨hblocks, -⟩ := h.heldBlocks
  exact linePending_eq_false.mp (hblocks x hx hholding) e (mem_pendingEntries.mpr ⟨i, he⟩) ⟨hsource.symm, hline.symm⟩

theorem State.Underway.claimOrdinary (h : s.Underway) (hwinner : s.winner = some (i, e)) {e' : Entry} (hfrom : e'.From e)
    (hlegal : e'.Legal) (hroom : s.stack.length < Config.stackMax) : (s.claimOrdinary i e').Underway := by
  obtain ⟨he, -⟩ := winner_spec hwinner
  have hcleared : (s.setSlot i none).Underway := { h.clearSlot i with outside := h.outside }
  have hfrees := clearSlot_frees he
  obtain ⟨hdead, hne⟩ := hfrees.tag h.toSafe
  obtain ⟨hkinds, -⟩ := h.kindsAgree
  have hlevel : s.lineLevel e' = s.lineLevel e := by rw [State.lineLevel, hfrom.source, hfrom.line, State.lineLevel]
  have hadmits : (s.setSlot i none).Admits e' :=
    { dead := by rwa [hfrom.tag]
      tag := by rwa [hfrom.tag]
      legal := hlegal
      kind := by
        rw [hfrom.kind, hfrom.source, hfrom.line]
        exact hkinds e (mem_pendingEntries.mpr ⟨i, he⟩)
      pool := fun hremote => hfrees.pool h.toSafe (hfrom.remote hremote)
      credit := fun n hcredit => hfrees.credit h (hfrom.creditOf hcredit) }
  have hpushed := hcleared.push (level := s.lineLevel e') hadmits hroom
    (by rw [hlevel]; exact winner_above_stack h.stackOrdered hwinner)
    (fun _ _ => by
      rw [hfrom.source, hfrom.line]
      exact ⟨clearSlot_linePending h.toSafe he, fun x hx => h.no_holding he hx⟩)
  exact { hpushed with }

end

/-! ## Completions and discards -/

section
variable {s : State} {x : StackEntry}

theorem State.Underway.endWithDone (h : s.Underway) (hx : s.stackTagged x.entry.tag = some x) {n : Node}
    (hcredit : x.entry.creditOf n = true) : (s.endWithDone x n).Underway := by
  rw [State.endWithDone]
  split
  · exact { h with }
  next hroom =>
    have hremoved : (s.removeStacked x.entry.tag).Underway := { h.removeStacked _ with outside := h.outside }
    have happended := hremoved.append (n := n) (body := .done x.entry.line .serviced)
      (by simpa [State.queueFull] using hroom) fun _ => (removeStacked_frees hx).credit h hcredit
    exact { happended with }

/-- The occurrence of a condition that holds may return to the Pending Table once its stack entry is gone (R31, R85). -/
theorem State.Underway.accepts_repost (h : s.Underway) (hx : s.stackTagged x.entry.tag = some x) (hholding : x.Holding)
    (hremote : x.entry.remote = true) :
    (s.removeStacked x.entry.tag).Accepts ⟨0, x.entry.source, x.entry.line, .held, 1, x.entry.payload, false, true⟩ := by
  have hfrees := removeStacked_frees hx
  obtain ⟨-, below, above, hstack, hbelow⟩ := stackTagged_split hx
  have hmem : x ∈ s.stack := hstack ▸ List.mem_append_right _ (List.mem_cons_self ..)
  have ⟨hheld, hfresh, _⟩ := hholding
  obtain ⟨-, hstackLegal⟩ := h.entriesLegal
  obtain ⟨⟨-, -, hpayload, -⟩, -⟩ := hstackLegal x hmem
  obtain ⟨-, hkinds⟩ := h.kindsAgree
  obtain ⟨hblocks, hothers⟩ := h.heldBlocks
  exact
    { legal := ⟨le_rfl, Nat.one_le_ofNat, hpayload, fun _ => rfl, fun hlocal => by
        have hnot := (remote_eq_false_iff x.entry).mpr hlocal
        exact absurd hremote (Bool.eq_false_iff.mp hnot), fun _ => rfl⟩
      fresh := rfl
      kind := hheld.symm.trans (hkinds x hmem)
      pool := fun _ => hfrees.pool h.toSafe hremote
      credit := fun n hcredit => hfrees.credit h (creditOf_iff.mpr ⟨(creditOf_iff.mp hcredit).1, hfresh⟩)
      line := hblocks x hmem hholding
      holds := by
        rw [removeStacked_middle s below above x hstack hbelow]
        rw [hstack, List.pairwise_append] at hothers
        obtain ⟨-, htail, hcross⟩ := hothers
        obtain ⟨habove, -⟩ := List.pairwise_cons.mp htail
        intro y hy hyholding
        rcases List.mem_append.mp hy with hy | hy
        · exact hcross y hy x (List.mem_cons_self ..) hyholding hholding
        · exact fun ⟨hsource, hline⟩ => habove y hy hholding hyholding ⟨hsource.symm, hline.symm⟩ }

/-- R85: a repost meets no fault: the pool holds the entry before and after. -/
theorem State.Underway.repost (h : s.Underway) (hx : s.stackTagged x.entry.tag = some x) (hholding : x.Holding)
    (hremote : x.entry.remote = true) : Yields State.Underway (s.repost x) := by
  obtain ⟨-, below, above, hstack, -⟩ := stackTagged_split hx
  have hmem : x ∈ s.stack := hstack ▸ List.mem_append_right _ (List.mem_cons_self ..)
  obtain ⟨i, tag, hslot, htag⟩ := h.exists_place (h.room_of_stacked hmem hremote)
  have hdead : (s.removeStacked x.entry.tag).tagLive tag = false := by
    have htally := (removeStacked_frees hx).tally fun f => decide (f.tag = tag)
    rw [tally_tag_eq_zero.mpr (nextTag_not_live htag)] at htally
    exact tally_tag_eq_zero.mp (Nat.eq_zero_of_add_eq_zero_right htally)
  have hremoved : (s.removeStacked x.entry.tag).Underway := { h.removeStacked _ with outside := h.outside }
  have hplaced := hremoved.place (h.accepts_repost hx hholding hremote) (freeSlot_some hslot) hdead (nextTag_ne_zero htag)
  refine ⟨_, by rw [State.repost, State.insertEntry, hslot, htag]; rfl, ?_⟩
  exact { hplaced with }

theorem State.Underway.completeEntry (h : s.Underway) (hx : s.stackTagged x.entry.tag = some x) :
    Yields State.Underway (s.completeEntry x) := by
  by_cases hsilent : x.entry.source = 15 ∨ x.entry.stale = true
  · rw [completeEntry_silent hsilent]
    have hremoved : (s.removeStacked x.entry.tag).Underway := { h.removeStacked _ with outside := h.outside }
    exact .ok { hremoved with }
  · obtain ⟨hremoteSource, hfresh⟩ := not_or.mp hsilent
    rw [Bool.not_eq_true] at hfresh
    have hremote : x.entry.remote = true := by
      rw [← Bool.not_eq_false, remote_eq_false_iff]
      exact hremoteSource
    obtain ⟨n, hnode⟩ := Option.isSome_iff_exists.mp hremote
    have hsource := nodeOf_eq_some_iff.mp hnode
    by_cases hends : x.entry.kind = .edge ∨ x.released = true
    · rw [completeEntry_notified hsource hfresh hends]
      exact .ok (h.endWithDone hx (creditOf_iff.mpr ⟨hsource, hfresh⟩))
    · obtain ⟨hedge, hkept⟩ := not_or.mp hends
      rw [Bool.not_eq_true] at hkept
      have hheld : x.entry.kind = .held := by
        cases hkind : x.entry.kind with
        | edge => exact absurd hkind hedge
        | held => rfl
      rw [completeEntry_reposts hsource hfresh hheld hkept]
      exact h.repost hx ⟨hheld, hfresh, hkept⟩ hremote

theorem State.Underway.discardEntry (h : s.Underway) {i : Fin 32} {e : Entry} (he : s.table[i] = some e) :
    (s.discardEntry i e).Underway := by
  rw [State.discardEntry]
  split
  · exact { h with }
  next hroom =>
    have hcleared : (s.setSlot i none).Underway := { h.clearSlot i with outside := h.outside }
    have hnotified := hcleared.notify (Bool.eq_false_iff.mpr hroom) (fun n => (clearSlot_frees he).credit h) .discarded
    exact { hnotified with }

end
end Sys2Proof.Machine
end

section
/-! SUPPORT. The transitions of a node under the laws (R36, R38, R72, R121, R130 to R139): what its record may become, what is left
of its work, and the faults counted against it. -/

namespace Sys2Proof.Machine

/-! ## Legal records -/

section
variable {r : NodeRecord}

/-- A node out of JOINING, ACTIVE and ABSENT, with its admitted limit 0 (R136, R138). -/
theorem NodeRecord.Legal.withdrawn (h : r.Legal) {state : NodeState} (hstate : state = .lost ∨ state = .leaving) (join : Bool)
    {faults : Nat} (hfaults : faults ≤ 7) : NodeRecord.Legal { r with state, join, admittedLimit := 0, faults } := by
  obtain ⟨-, hlimit, -, -, -, hack, hnoAck⟩ := h
  rcases hstate with rfl | rfl <;> exact ⟨by simp, hlimit, hfaults, by simp, by simp, hack, hnoAck⟩

/-- The fault count of an ACTIVE node. -/
theorem NodeRecord.Legal.withFaults (h : r.Legal) (hactive : r.state = .active) {faults : Nat} (hfaults : faults ≤ 7) :
    NodeRecord.Legal { r with faults } := by
  obtain ⟨hadmitted, hlimit, -, hdeclared, -, hack, hnoAck⟩ := h
  exact ⟨hadmitted, hlimit, hfaults, hdeclared, fun habsent => (by cases hactive.symm.trans habsent), hack,
    hnoAck⟩

/-- The settings of SET_NODE (R140). -/
theorem NodeRecord.Legal.configured (h : r.Legal) (join : Bool) {configLimit : Credit} (hlimit : configLimit ≠ 0) :
    NodeRecord.Legal { r with join, configLimit } := by
  obtain ⟨hadmitted, -, hrest⟩ := h
  exact ⟨hadmitted, hlimit, hrest⟩

/-- A node that is admitted (R133, R137). -/
theorem NodeRecord.Legal.admitted (h : r.Legal) {declared : Fin 9} (hdeclared : declared ≠ 0) :
    NodeRecord.Legal { r.clearSequence with state := .joining, declared, admittedLimit := r.configLimit } := by
  obtain ⟨-, hlimit, -⟩ := h
  exact ⟨by simp [hlimit], hlimit, Nat.zero_le _, fun _ => hdeclared, by simp, by simp [NodeRecord.clearSequence],
    fun _ => ⟨rfl, rfl, rfl⟩⟩

/-- A node that is lost at a restart (R137). -/
theorem NodeRecord.Legal.dropped (h : r.Legal) :
    NodeRecord.Legal { r.clearSequence with state := .lost, admittedLimit := 0 } := by
  obtain ⟨-, hlimit, -⟩ := h
  exact ⟨by simp, hlimit, Nat.zero_le _, by simp, by simp, by simp [NodeRecord.clearSequence], fun _ => ⟨rfl, rfl, rfl⟩⟩

/-- A node that has left (R139). -/
theorem NodeRecord.Legal.left (h : r.Legal) :
    NodeRecord.Legal { r.clearSequence with state := .absent, admittedLimit := 0, declared := 0 } := by
  obtain ⟨-, hlimit, -⟩ := h
  exact ⟨by simp, hlimit, Nat.zero_le _, by simp, fun _ => ⟨rfl, rfl, rfl⟩, by simp [NodeRecord.clearSequence],
    fun _ => ⟨rfl, rfl, rfl⟩⟩

/-- A node that has joined (R134). -/
theorem NodeRecord.Legal.joined (h : r.Legal) (hjoining : r.state = .joining) :
    NodeRecord.Legal { r with state := .active, faults := 0 } := by
  obtain ⟨hadmitted, hlimit, -, hdeclared, -, hack, hnoAck⟩ := h
  have hadmittedLimit := hadmitted.mp (.inl hjoining)
  exact ⟨by simp [hadmittedLimit], hlimit, Nat.zero_le _, fun _ => hdeclared (.inl hjoining), by simp, hack, hnoAck⟩

/-- A node whose frame is accepted (R123). -/
theorem NodeRecord.Legal.accepted (h : r.Legal) (hactive : r.state = .active) (seq : Seq) (newEntry : Bool) :
    (r.accept seq newEntry).Legal := by
  obtain ⟨hadmitted, hlimit, -, hdeclared, -⟩ := h
  refine ⟨hadmitted, hlimit, Nat.zero_le _, hdeclared, fun habsent => ?_, fun _ => rfl, fun hnoAck => ?_⟩
  · cases hactive.symm.trans habsent
  · cases hnoAck

end

/-! ## Work that ages with its node -/

section
variable {s : State} {n : Node} {f : Entry → Option Entry}

theorem mapPending_getElem (s : State) (f : Entry → Option Entry) (i : Fin 32) :
    (s.mapPending f).table[i] = s.table[i].bind f := mapSlots_getElem ..

theorem mem_mapPending {e' : Entry} : e' ∈ (s.mapPending f).pendingEntries ↔ ∃ e ∈ s.pendingEntries, e' ∈ f e := by
  simp only [mem_pendingEntries, mapPending_getElem, Option.bind_eq_some_iff, Option.mem_def]
  constructor
  · rintro ⟨i, e, he, he'⟩
    exact ⟨e, ⟨i, he⟩, he'⟩
  · rintro ⟨e, ⟨i, he⟩, he'⟩
    exact ⟨i, e, he, he'⟩

/-- Entries stay legal where the pending ones do; the stale mark leaves those of a node legal. -/
theorem aged_entriesLegal (hf : ∀ e, e.Legal → ∀ e' ∈ f e, e'.Legal) (n : Node) (h : s.EntriesLegal) :
    ((s.mapPending f).markStacked n).EntriesLegal := by
  obtain ⟨hpending, hstack⟩ := h
  refine ⟨fun e' he' => ?_, List.forall_mem_map.mpr fun x hx => ?_⟩
  · obtain ⟨e, he, hfe⟩ := mem_mapPending.mp he'
    exact hf e (hpending e he) e' hfe
  · obtain ⟨hlegal, hreleased⟩ := hstack x hx
    split
    next hnode => exact ⟨markStale_legal hnode hlegal, hreleased⟩
    next => exact ⟨hlegal, hreleased⟩

/-- With no fresh pending entry of the node left, none of its credits is held (R128). -/
theorem aged_heldCredits (hf : ∀ e, ∀ e' ∈ f e, e'.creditOf n = false) :
    (((s.mapPending f).markStacked n).removeDones n).heldCredits n = 0 := by
  have hpending : (s.mapPending f).pendingEntries.countP (·.creditOf n) = 0 :=
    List.countP_eq_zero.mpr fun e' he' => by
      obtain ⟨e, -, hfe⟩ := mem_mapPending.mp he'
      simp [hf e e' hfe]
  have hstack : (s.markStacked n).stack.countP (·.entry.creditOf n) = 0 := by
    refine List.countP_eq_zero.mpr (List.forall_mem_map.mpr fun x _ => ?_)
    split
    · simp [Entry.creditOf, Entry.markStale]
    next hnode => simp [Entry.creditOf, hnode]
  have hqueue : (s.removeDones n).queue.countP (·.doneFor n) = 0 :=
    List.countP_eq_zero.mpr fun g hg => by simpa using (List.mem_filter.mp hg).2
  exact congrArg₂ (· + ·) (congrArg₂ (· + ·) hpending hstack) hqueue

/-- What becomes of a pending entry when its node is lost or restarts (R36). -/
def dismissed (n : Node) (e : Entry) : Option Entry :=
  if e.ofNode n then (if e.kind = .edge then some e.markStale else none) else some e

theorem mem_dismissed {e e' : Entry} :
    e' ∈ dismissed n e ↔ (e.ofNode n = true ∧ e.kind = .edge ∧ e.markStale = e') ∨ (e.ofNode n = false ∧ e = e') := by
  unfold dismissed
  cases e.ofNode n with
  | true => cases e.kind <;> simp
  | false => simp

theorem dismissWork_heldCredits (s : State) (n : Node) : (s.dismissWork n).heldCredits n = 0 := by
  refine aged_heldCredits fun e e' he' => ?_
  rcases mem_dismissed.mp he' with ⟨-, -, rfl⟩ | ⟨hother, rfl⟩
  · simp [Entry.creditOf, Entry.markStale]
  · simp [Entry.creditOf, hother]

theorem State.Underway.dismissWork (h : s.Underway) (n : Node) : (s.dismissWork n).Underway := by
  have hshrinks := State.Shrinks.dismissWork s n
  have haged : ((s.mapPending (dismissed n)).markStacked n).Safe := by
    refine h.shrink ⟨hshrinks.table, hshrinks.stack⟩ rfl (aged_entriesLegal (fun e he e' he' => ?_) n h.entriesLegal)
      fun i e' he' hheld hstale => ?_
    · rcases mem_dismissed.mp he' with ⟨hnode, -, rfl⟩ | ⟨-, rfl⟩
      · exact markStale_legal hnode he
      · exact he
    · obtain ⟨e, he, hfe⟩ := Option.bind_eq_some_iff.mp ((mapPending_getElem s _ i).symm.trans he')
      rcases mem_dismissed.mp hfe with ⟨-, hedge, rfl⟩ | ⟨-, rfl⟩
      · cases hedge.symm.trans hheld
      · exact h.staleHeldRetiring i _ he hheld hstale
  exact { haged.removeDones n with outside := h.outside }

end

/-! ## Nodes that come and go -/

section
variable {s : State} {n : Node}

/-- A node without held credits taken to a state with no frame owed. -/
theorem State.Underway.setIdleNode (h : s.Underway) (hzero : s.heldCredits n = 0) {r : NodeRecord} (hlegal : r.Legal)
    (hstate : r.state = .absent ∨ r.state = .lost) : (s.setNode n r).Underway := by
  have hnot {state : NodeState} (hne : state ≠ .absent ∧ state ≠ .lost) : r.state ≠ state := fun heq =>
    hstate.elim (fun h => hne.1 (heq.symm.trans h)) fun h => hne.2 (heq.symm.trans h)
  exact h.setNode hlegal (fun hactive => absurd hactive (hnot (by decide))) ⟨hzero.trans_le (Nat.zero_le _), fun _ => hzero⟩
    (fun hjoining => absurd hjoining (hnot (by decide))) fun hleaving => absurd hleaving (hnot (by decide))

theorem State.Underway.recordLegal (h : s.Underway) (n : Node) : s.nodes[n].Legal := by
  obtain ⟨hrecords, -⟩ := h.recordsLegal
  exact (hrecords n).1

/-- R136. -/
theorem State.Underway.loseNode (h : s.Underway) {faults : Nat} (hfaults : faults ≤ 7) : (s.loseNode n faults).Underway := by
  rw [State.loseNode, dismissWork_setNode]
  exact ((h.dismissWork n).setIdleNode (dismissWork_heldCredits s n)
    ((h.recordLegal n).withdrawn (.inl rfl) s.nodes[n].join hfaults) (.inr rfl)).raise _

/-- An ACTIVE node's fault count below 7. -/
theorem State.Underway.setFaults (h : s.Underway) (hactive : s.nodes[n].state = .active) {faults : Nat} (hfaults : faults < 7) :
    (s.setNode n { s.nodes[n] with faults }).Underway :=
  { h.updateNode (n := n) (r := { s.nodes[n] with faults }) rfl rfl ((h.recordLegal n).withFaults hactive hfaults.le)
      fun _ => hfaults with
    outside := h.outside }

/-- R135. -/
theorem State.Underway.countFault (h : s.Underway) (n : Node) : (s.countFault n).Underway := by
  obtain ⟨hrecords, -, -, -, -, hfaultLimit, -⟩ := h.recordsLegal
  by_cases hactive : s.nodes[n].state = .active
  · have hfaults := (hrecords n).2 hactive
    rw [countFault_active hactive]
    split
    · exact h.loseNode hfaults
    next hbelow => exact h.setFaults hactive (by omega)
  · rwa [countFault_inactive hactive]

theorem State.Underway.slotFault (h : s.Underway) (n : Node) (slot : SlotKind) : (s.slotFault n slot).Underway := by
  cases slot with
  | poll => exact h.countFault n
  | probe => exact h

theorem State.Underway.badFrame (h : s.Underway) (n : Node) (slot : SlotKind) : (s.badFrame n slot).Underway :=
  (h.raise _).slotFault n slot

/-- A node without held credits is admitted, its ADMIT queued (R133, R137). -/
theorem State.Underway.admitNode (h : s.Underway) (hzero : s.heldCredits n = 0) (hroom : s.queue.length < Config.queueMax)
    {declared : Fin 9} (hdeclared : declared ≠ 0) : (s.admitNode n declared).Underway := by
  have hqueued : (s.append n (.admitFrame s.nodes[n].configLimit)).Underway := h.append hroom nofun
  have hstill : (s.append n (.admitFrame s.nodes[n].configLimit)).heldCredits n = 0 := by
    rw [heldCredits_append, hzero]
    simp [OutBody.kind]
  exact hqueued.setNode ((h.recordLegal n).admitted hdeclared) nofun ⟨hstill.trans_le (Nat.zero_le _), fun _ => hstill⟩
    (fun _ => ⟨_, List.mem_append_right _ (List.mem_singleton_self _), rfl, rfl⟩) nofun

/-- R132, R133, R137. -/
theorem State.Underway.hello (h : s.Underway) (n : Node) {declared : Fin 9} (hdeclared : declared ≠ 0) :
    (s.hello n declared).Underway := by
  have hjoin (hinactive : s.nodes[n].state ≠ .active) :
      (if s.nodes[n].join then s.joinRequest n declared else s).Underway := by
    rw [State.joinRequest]
    split
    · split
      · exact h
      next hroom => exact h.admitNode ((h.credits n).2 hinactive) (not_le.mp (mt queueFull_iff.mpr hroom)) hdeclared
    · exact h
  have hgone := h.dismissWork n
  have hnone := dismissWork_heldCredits s n
  unfold State.hello
  cases hstate : s.nodes[n].state with
  | absent | lost => exact hjoin fun hactive => by cases hstate.symm.trans hactive
  | joining | leaving => exact h
  | active =>
    dsimp only
    rw [restartNode_eq]
    refine State.Underway.raise ?_ _
    split
    next hadmits => exact hgone.admitNode hnone hadmits.2 hdeclared
    next => exact hgone.setIdleNode hnone (h.recordLegal n).dropped (.inr rfl)

/-- R102, R134, R139. -/
theorem State.Underway.reportTransmission (h : s.Underway) (f : TxFrame) : (s.reportTransmission f).Underway := by
  unfold State.reportTransmission
  dsimp only
  cases f.kind with
  | admitFrame =>
    dsimp only
    split
    next hjoining =>
      have hzero := (h.credits f.dest).2 fun hactive => by cases hjoining.symm.trans hactive
      exact (h.setNode ((h.recordLegal f.dest).joined hjoining) (fun _ => Nat.zero_lt_succ _)
        ⟨hzero.trans_le (Nat.zero_le _), fun _ => hzero⟩ nofun nofun).raise _
    next => exact h
  | eject =>
    dsimp only
    split
    next hleaving =>
      have hzero := (h.credits f.dest).2 fun hactive => by cases hleaving.symm.trans hactive
      exact (h.setIdleNode hzero (h.recordLegal f.dest).left (.inl rfl)).raise _
    next => exact h
  | done | poll | probe => exact h

/-- With no walk under way no stale HELD entry is pending. -/
theorem State.Safe.no_staleHeld (h : s.Safe) (hidle : s.retiring = none) {i : Fin 32} {e : Entry} (he : s.table[i] = some e)
    (hheld : e.kind = .held) : e.stale = false := by
  cases hstale : e.stale with
  | false => rfl
  | true =>
    obtain ⟨w, hw, -⟩ := h.staleHeldRetiring i e he hheld hstale
    simp [hidle] at hw

end

/-! ## RETIRE -/

/-- The mark that RETIRE makes on a pending entry (R38). -/
def retired (n : Node) (e : Entry) : Option Entry := some (if e.ofNode n then e.markStale else e)

theorem mem_retired {n : Node} {e e' : Entry} :
    e' ∈ retired n e ↔ (e.ofNode n = true ∧ e.markStale = e') ∨ (e.ofNode n = false ∧ e = e') := by
  unfold retired
  cases e.ofNode n <;> simp

/-- The block with the RETIRE walk taken up and the node's entries marked stale (R38). -/
def State.retireMarks (s : State) (n : Node) : State :=
  (State.mapPending { s with command := .retire n 0 } (retired n)).markStacked n

section
variable {s : State} {n : Node}

theorem beginRetire_eq_setNode (s : State) (n : Node) :
    s.beginRetire n = (((s.retireMarks n).removeDones n).append n .eject).setNode n
      { s.nodes[n] with state := .leaving, join := false, admittedLimit := 0 } := rfl

/-- Outside CONFIG an idle Command Unit means RUN or PAUSED. -/
theorem State.Underway.mode_of_idle (h : s.Underway) (hidle : s.command = .idle) :
    s.mode ≠ .stopping ∧ (s.mode = .run ∨ s.mode = .paused) := by
  obtain ⟨hstopping, -⟩ := h.modeConsistent
  have hnot : s.mode ≠ .stopping := fun hmode => by cases hidle.symm.trans (hstopping.mpr hmode)
  refine ⟨hnot, ?_⟩
  cases hmode : s.mode with
  | config => exact absurd hmode h.outside
  | run => exact .inl rfl
  | stopping => exact absurd hmode hnot
  | paused => exact .inr rfl

theorem State.Underway.takeRetire (h : s.Underway) (hidle : s.command = .idle) (n : Node) :
    State.Safe { s with command := .retire n 0 } := by
  obtain ⟨hnot, hmode⟩ := h.mode_of_idle hidle
  have hretiring : s.retiring = none := by rw [State.retiring, hidle]
  exact { h with
    staleHeldRetiring := fun i e he hheld hstale => by simp [h.no_staleHeld hretiring he hheld] at hstale
    creditsBounded := fun _ => h.credits
    modeConsistent := ⟨⟨nofun, (absurd · hnot)⟩, (absurd · hnot), fun _ => hmode, absurd rfl⟩
    configEmpty := (absurd · h.outside) }

/-- The stale HELD entries that RETIRE leaves pending are the node's, and all in slots that its walk will visit (R39). -/
theorem State.Underway.retireMarks (h : s.Underway) (hidle : s.command = .idle) (n : Node) : (s.retireMarks n).Underway := by
  have hretiring : s.retiring = none := by rw [State.retiring, hidle]
  have hshrinks := beginRetire_shrinks s n
  have hmarked : (s.retireMarks n).Safe := by
    refine (h.takeRetire hidle n).shrink ⟨hshrinks.table, hshrinks.stack⟩ rfl
      (aged_entriesLegal (fun e he e' he' => ?_) n h.entriesLegal) fun i e' he' hheld hstale => ?_
    · rcases mem_retired.mp he' with ⟨hnode, rfl⟩ | ⟨-, rfl⟩
      · exact markStale_legal hnode he
      · exact he
    · have hslot := mapPending_getElem { s with command := .retire n 0 } (retired n) i
      obtain ⟨e, he, hmark⟩ := Option.bind_eq_some_iff.mp (hslot.symm.trans he')
      rcases mem_retired.mp hmark with ⟨hnode, rfl⟩ | ⟨-, rfl⟩
      · exact ⟨(n, 0), rfl, hnode, Fin.zero_le _⟩
      · simp [h.no_staleHeld hretiring he hheld] at hstale
  exact { hmarked with outside := h.outside }

theorem retireMarks_heldCredits (s : State) (n : Node) : ((s.retireMarks n).removeDones n).heldCredits n = 0 := by
  refine aged_heldCredits fun e e' he' => ?_
  rcases mem_retired.mp he' with ⟨-, rfl⟩ | ⟨hother, rfl⟩
  · simp [Entry.creditOf, Entry.markStale]
  · simp [Entry.creditOf, hother]

/-- R38, R138. -/
theorem State.Underway.beginRetire (h : s.Underway) (hidle : s.command = .idle) (hroom : s.queue.length < Config.queueMax)
    (n : Node) : (s.beginRetire n).Underway := by
  obtain ⟨-, -, hfaults, -⟩ := h.recordLegal n
  have hmarked := h.retireMarks hidle n
  have hremoved : ((s.retireMarks n).removeDones n).Underway := { hmarked.removeDones n with outside := h.outside }
  have hqueued : (((s.retireMarks n).removeDones n).append n .eject).Underway :=
    hremoved.append ((removeDones_length s n).trans_lt hroom) nofun
  have hzero : (((s.retireMarks n).removeDones n).append n .eject).heldCredits n = 0 := by
    rw [heldCredits_append, retireMarks_heldCredits]
    simp [OutBody.kind]
  rw [beginRetire_eq_setNode]
  exact hqueued.setNode ((h.recordLegal n).withdrawn (.inr rfl) false hfaults) nofun
    ⟨hzero.trans_le (Nat.zero_le _), fun _ => hzero⟩ nofun
    fun _ => ⟨_, List.mem_append_right _ (List.mem_singleton_self _), rfl, rfl⟩

end

end Sys2Proof.Machine
end

section
/-! SUPPORT. Replies under the laws (R122 to R125): what the decision table has established where a row writes, and that no take
meets a fault. -/

namespace Sys2Proof.Machine

/-! ## What the decision table has established -/

/-- A line of node `n` without a pending entry and without a condition that holds, and room for an entry of it. -/
structure State.LineOpen (s : State) (n : Node) (line : Line) : Prop where
  capacity : s.hasCapacity n = true
  unoccupied : s.linePending n.source line = false
  holds : ∀ x ∈ s.stack, x.Holding → ¬ (x.entry.source = n.source ∧ x.entry.line = line)

/-- What a row that writes the tables writes where: it merges into an EDGE entry, it inserts on an open line, it withdraws a fresh
entry of the node with room for the DONE (R124). -/
def State.RowAllowed (s : State) (n : Node) (line : Line) : EventRow → Prop
  | .row2a slot e => s.table[slot] = some e ∧ e.kind = .edge
  | .row2b => s.LineOpen n line
  | .row3b => s.LineOpen n line
  | .row5a slot e => s.table[slot] = some e ∧ e.creditOf n = true ∧ s.queueFull = false
  | _ => True

section
variable {s : State} {n : Node} {line : Line}

theorem pulseRow_allowed (h : s.Safe) (hedge : (s.lineConfig n.source line).kind = .edge) :
    s.RowAllowed n line (s.pulseRow n line) := by
  obtain ⟨hpendingKinds, hstackKinds⟩ := h.kindsAgree
  unfold State.pulseRow
  split
  next slot e hpending =>
    obtain ⟨he, hon⟩ := findPending_some hpending
    obtain ⟨hsource, hline⟩ : e.source = n.source ∧ e.line = line := by simpa [Entry.on] using hon
    refine ⟨he, ?_⟩
    rw [hpendingKinds e (mem_pendingEntries.mpr ⟨slot, he⟩), hsource, hline, hedge]
  next hnone =>
    split
    next hcapacity =>
      refine ⟨hcapacity, List.any_eq_false.mpr fun e he => by simpa using findPending_none.mp hnone e he, ?_⟩
      rintro x hx ⟨hheld, -⟩ ⟨hsource, hline⟩
      have hkind := hstackKinds x hx
      rw [hsource, hline, hedge] at hkind
      cases hkind.symm.trans hheld
    next => trivial

/-- R124: with no walk under way, a line without a fresh entry pending has none at all if it is HELD. -/
theorem assertRow_allowed (h : s.Safe) (hidle : s.retiring = none) (hheld : (s.lineConfig n.source line).kind = .held) :
    s.RowAllowed n line (s.assertRow n line) := by
  obtain ⟨hpendingKinds, -⟩ := h.kindsAgree
  unfold State.assertRow
  split
  · trivial
  next hfree =>
    obtain ⟨hpending, hstack⟩ := not_or.mp fun hor => hfree (Bool.or_eq_true_iff.mpr hor)
    split
    next hcapacity =>
      refine ⟨hcapacity, linePending_eq_false.mpr fun e he ⟨hsource, hline⟩ => hpending ?_,
        fun x hx hholding hon => hstack ?_⟩
      · obtain ⟨i, hi⟩ := mem_pendingEntries.mp he
        have hkind := hpendingKinds e he
        rw [hsource, hline, hheld] at hkind
        exact freshPending_isSome.mpr ⟨e, he, hsource, hline, h.no_staleHeld hidle hi hkind⟩
      · obtain ⟨-, hfresh, hkept⟩ := hholding
        exact holdsLine_any.mpr ⟨x, hx, hon.1, hon.2, hfresh, hkept⟩
    next => trivial

theorem releaseRow_allowed : s.RowAllowed n line (s.releaseRow n line) := by
  unfold State.releaseRow
  split
  next slot e hfresh =>
    obtain ⟨he, hon⟩ := findPending_some hfresh
    obtain ⟨⟨hsource, -⟩, hstale⟩ : (e.source = n.source ∧ e.line = line) ∧ e.stale = false := by
      simpa [Entry.on] using hon
    split
    next => trivial
    next hfree => exact ⟨he, creditOf_iff.mpr ⟨hsource, hstale⟩, eq_false_of_ne_true hfree⟩
  next => split <;> trivial

theorem eventRow_allowed (h : s.Safe) (hidle : s.retiring = none) (kind : EventKind) :
    s.RowAllowed n line (s.eventRow n kind line) := by
  unfold State.eventRow
  dsimp only
  split
  · trivial
  · split
    · trivial
    next hsuits =>
      have hkind := suits_iff.mp (by simpa using hsuits)
      cases kind with
      | pulse =>
        dsimp only
        split
        · exact pulseRow_allowed h (hkind.mp rfl)
        · trivial
      | assert =>
        have hheld : (s.lineConfig n.source line).kind = .held := by
          cases hcase : (s.lineConfig n.source line).kind with
          | edge => cases hkind.mpr hcase
          | held => rfl
        dsimp only
        split
        · exact assertRow_allowed h hidle hheld
        · trivial
      | release => exact releaseRow_allowed

end

/-! ## The effect of a row -/

section
variable {s : State} {n : Node} {line : Line} {payload : List Byte}

theorem State.Underway.insertRemote (h : s.Underway) (hactive : s.nodes[n].state = .active) (hopen : s.LineOpen n line)
    (hpayload : payload.length ≤ 2) :
    Yields State.Underway (s.insertEntry n.source line (s.lineConfig n.source line).kind payload false) := by
  obtain ⟨hpool, hcredit⟩ := hasCapacity_iff.mp hopen.capacity
  refine h.insert ⟨⟨le_rfl, Nat.one_le_ofNat, hpayload, fun _ => rfl, fun _ => ⟨rfl, rfl⟩, nofun⟩, rfl,
    rfl, fun _ => hpool, fun m hm => ?_, hopen.unoccupied, hopen.holds⟩ (h.room_of_pool hpool)
  obtain rfl : n = m := Fin.castSucc_injective _ (creditOf_iff.mp hm).1
  exact ⟨hactive, hcredit⟩

theorem applyRow_yields {row : EventRow} (h : s.Underway) (hactive : s.nodes[n].state = .active)
    (hallowed : s.RowAllowed n line row) (hpayload : payload.length ≤ 2) :
    Yields State.Underway (s.applyRow row n line payload) := by
  cases row with
  | row2a slot e =>
    obtain ⟨he, hedge⟩ := hallowed
    exact .ok { h.merge he hedge hpayload with outside := h.outside }
  | row2b | row3b => exact h.insertRemote hactive hallowed hpayload
  | row5a slot e =>
    obtain ⟨he, hcredit, hroom⟩ := hallowed
    have hcleared : (s.setSlot slot none).Underway := { h.clearSlot slot with outside := h.outside }
    exact .ok (hcleared.append (not_le.mp (of_decide_eq_false hroom)) fun _ => (clearSlot_frees he).credit h hcredit)
  | row5c => exact .ok { h.markReleased n.source line with outside := h.outside }
  | row1a | row1b | row2c | row3a | row3c | row4 | row5b | row5d => exact .ok h

end

/-! ## The take -/

section
variable {s : State} {n : Node} {seq : Seq} {more : Bool} {kind : EventKind} {line : Line} {payload : List Byte}

theorem decideEvent_yields (h : s.Underway) (hidle : s.retiring = none) (hactive : s.nodes[n].state = .active)
    (hpayload : payload.length ≤ 2) : Yields State.Underway (s.decideEvent n seq more kind line payload) := by
  refine (applyRow_yields h hactive (eventRow_allowed h.toSafe hidle kind) hpayload).bind fun t happly ht => ?_
  have hnode : t.nodes[n].state = .active := by rwa [applyRow_nodes happly]
  dsimp only
  split
  · exact .ok (ht.setFaults hnode (Nat.zero_lt_succ _))
  next newEntry _ =>
    have haccepted : (t.setNode n (t.nodes[n].accept seq newEntry)).Safe :=
      ht.updateNode rfl rfl ((ht.recordLegal n).accepted hnode seq newEntry) fun _ => Nat.zero_lt_succ _
    have harmed : State.Underway { t.setNode n (t.nodes[n].accept seq newEntry) with burst := t.burst.arm n more } :=
      { haccepted with outside := ht.outside }
    split
    · exact .ok (harmed.raise _)
    · exact .ok harmed

/-- R123, R125, with either value of the choice at the loss. -/
theorem sequenceFault_yields (h : s.Underway) (hactive : s.nodes[n].state = .active) (atOnce : Bool) :
    Yields State.Underway (s.sequenceFault n atOnce) := by
  obtain ⟨hrecords, -, -, -, -, hfaultLimit, -⟩ := h.recordsLegal
  have hfaults := (hrecords n).2 hactive
  rw [sequenceFault_active atOnce hactive]
  split
  · have hgone : (s.loseNode n (s.nodes[n].faults + 1)).Underway := h.loseNode hfaults
    have hlost : State.Underway { s.loseNode n (s.nodes[n].faults + 1) with freeCount := s.freeCount + 1 } := { hgone with }
    split
    · exact hlost.postCondition _
    · exact .ok (hlost.raise _)
  next hbelow => exact (h.setFaults hactive (by omega)).postCondition _

theorem judgeEvent_yields (h : s.Underway) (hidle : s.retiring = none) (hactive : s.nodes[n].state = .active)
    (hpayload : payload.length ≤ 2) : Yields State.Underway (s.judgeEvent n seq more kind line payload) := by
  unfold State.judgeEvent
  dsimp only
  split
  · exact decideEvent_yields h hidle hactive hpayload
  · split
    · exact .ok { h.setFaults hactive (Nat.zero_lt_succ _) with }
    · exact sequenceFault_yields h hactive _

theorem handleReply_yields (h : s.Underway) (hidle : s.retiring = none) {r : ReplyRecord} (hlegal : r.reply.legal = true) :
    Yields State.Underway (s.handleReply r) := by
  obtain ⟨n, slot, reply⟩ := r
  cases reply with
  | hello declared =>
    have hdeclared : declared ≠ 0 := of_decide_eq_true hlegal
    cases slot <;> exact .ok (h.hello n hdeclared)
  | idle =>
    cases slot with
    | probe => exact .ok h
    | poll =>
      simp only [State.handleReply]
      split
      next hactive => exact .ok (h.setFaults (of_decide_eq_true hactive) (Nat.zero_lt_succ _))
      next => exact .ok h
  | event seq more kind line payload =>
    cases slot with
    | probe => exact .ok h
    | poll =>
      simp only [State.handleReply]
      split
      next hactive => exact judgeEvent_yields h hidle (of_decide_eq_true hactive) (of_decide_eq_true hlegal)
      next => exact .ok h

end

end Sys2Proof.Machine
end

section
/-! SUPPORT. The Link Engine and the Scheduler under the laws (R100 to R120): the moves of the link, the outcomes of a window, and
what a choice leaves in the Outbound Queue. -/

namespace Sys2Proof.Machine

/-! ## Moves of the link -/

/-- R134, R139: each JOINING node has its ADMIT, and each LEAVING one its EJECT, in the Outbound Queue. -/
structure State.FramesQueued (s : State) : Prop where
  joining : ∀ n : Node, s.nodes[n].state = .joining → ∃ f ∈ s.queue, f.dest = n ∧ f.body.kind = .admitFrame
  leaving : ∀ n : Node, s.nodes[n].state = .leaving → ∃ f ∈ s.queue, f.dest = n ∧ f.body.kind = .eject

section
variable {s : State}

theorem State.Safe.framesQueued (h : s.Safe) (hlink : s.link ≠ .send) : s.FramesQueued where
  joining n hjoining := (h.admitUnderway n hjoining).resolve_right fun hsend => hlink hsend.1
  leaving n hleaving := (h.ejectUnderway n hleaving).resolve_right fun hsend => hlink hsend.1

/-- The link in another state of its own, with the frames that are owed in the queue. -/
theorem State.Safe.moveLink (h : s.Safe) (hqueued : s.FramesQueued) {link : LinkState} {bitTimer : Nat} {shiftReg : List Byte}
    {txBuffer : Option TxFrame} (hlink : State.LinkConsistent { s with link, bitTimer, shiftReg, txBuffer })
    (htimer : State.TimerConsistent { s with link, bitTimer, shiftReg, txBuffer })
    (hstopping : s.mode = .stopping → link ≠ .idle) (hpaused : s.mode = .paused → link = .idle)
    (hconfig : s.mode = .config → (link = .idle ∨ link = .guard) ∧ txBuffer = none) :
    State.Safe { s with link, bitTimer, shiftReg, txBuffer } := by
  obtain ⟨hstop, -, hwalk, hclear⟩ := h.modeConsistent
  exact { h with
    linkConsistent := hlink
    timerConsistent := htimer
    modeConsistent := ⟨hstop, hstopping, hwalk, hclear⟩
    configEmpty := fun hmode => by
      obtain ⟨hstack, hqueue, hholding, hraised, hnodes, -, -, hslots⟩ := h.configEmpty hmode
      obtain ⟨hidle, hbuffer⟩ := hconfig hmode
      exact ⟨hstack, hqueue, hholding, hraised, hnodes, hidle, hbuffer, hslots⟩
    pausedIdle := hpaused
    admitUnderway := fun n hjoining => .inl (hqueued.joining n hjoining)
    ejectUnderway := fun n hleaving => .inl (hqueued.leaving n hleaving) }

/-- A move within a slot, past the transmission. -/
theorem State.Underway.moveOn (h : s.Underway) (hbusy : s.link ≠ .idle) (hqueued : s.FramesQueued) {link : LinkState}
    {bitTimer : Nat} {shiftReg : List Byte} (hstays : link ≠ .idle)
    (hlink : State.LinkConsistent { s with link, bitTimer, shiftReg })
    (htimer : State.TimerConsistent { s with link, bitTimer, shiftReg }) :
    State.Underway { s with link, bitTimer, shiftReg } :=
  { h.moveLink hqueued (txBuffer := s.txBuffer) hlink htimer (fun _ => hstays)
      (fun hmode => absurd (h.pausedIdle hmode) hbusy) fun hmode => absurd hmode h.outside with
    outside := h.outside }

theorem State.Safe.shiftReg_empty (h : s.Safe) (hlink : s.link ≠ .drain) : s.shiftReg = [] := by
  obtain ⟨-, -, -, hempty, -⟩ := h.linkConsistent
  exact hempty hlink

/-- Outside CONFIG the link is in a slot, if not in IDLE. -/
theorem State.Safe.underway (h : s.Safe) (hlink : s.link ≠ .idle ∧ s.link ≠ .guard) : s.Underway :=
  { h with
    outside := fun hmode => by
      obtain ⟨-, -, -, -, -, hidle, -⟩ := h.configEmpty hmode
      exact hidle.elim hlink.1 hlink.2 }

/-! ## The end of a window -/

theorem State.Underway.closeWindow (h : s.Underway) (hwindow : s.link = .wait ∨ s.link = .read ∨ s.link = .drain) (time : Nat) :
    (s.closeWindow time []).Underway := by
  have hnot {link : LinkState} (hlink : link ≠ .wait ∧ link ≠ .read ∧ link ≠ .drain) : s.link ≠ link := fun heq => by
    subst heq
    exact hwindow.elim hlink.1 (Or.rec hlink.2.1 hlink.2.2)
  have hidle : s.link ≠ .idle := hnot (by decide)
  have hsend : s.link ≠ .send := hnot (by decide)
  exact h.moveOn (link := .guard) hidle (h.framesQueued hsend) (by decide)
    ⟨nofun, nofun, by simp, fun _ => rfl, Nat.zero_le _⟩ ⟨by simp, nofun, nofun, nofun⟩

theorem slotFault_link (s : State) (n : Node) (slot : SlotKind) : (s.slotFault n slot).link = s.link :=
  (congrArg State.link (slotFault_writesTables n slot)).trans rfl

theorem badFrame_link (s : State) (n : Node) (slot : SlotKind) : (s.badFrame n slot).link = s.link :=
  slotFault_link (s.raise (.linkFault n)) n slot

/-- The bytes of a reply play no part in its outcome beyond the judgment of the check byte. -/
theorem badFrame_assemble (s : State) (bytes : List Byte) (n : Node) (slot : SlotKind) :
    (s.assemble bytes).badFrame n slot = (s.badFrame n slot).assemble bytes := by
  cases slot with
  | poll => exact ite_image (f := (State.assemble · bytes)) (ite_image (f := (State.assemble · bytes)) rfl rfl) rfl
  | probe => rfl

theorem goodReply_assemble (s : State) (bytes : List Byte) (r : ReplyRecord) :
    (s.assemble bytes).goodReply r = (s.goodReply r).assemble bytes := by
  cases hholding : s.holding with
  | none => rw [goodReply_held r hholding, goodReply_held (s := s.assemble bytes) r hholding]; rfl
  | some held => rw [goodReply_overrun r hholding, goodReply_overrun (s := s.assemble bytes) r hholding]; rfl

theorem goodReply_link (s : State) (r : ReplyRecord) : (s.goodReply r).link = s.link := by
  cases hholding : s.holding with
  | none => rw [goodReply_held r hholding]
  | some held => rw [goodReply_overrun r hholding]; rfl

theorem State.Underway.goodReply (h : s.Underway) {r : ReplyRecord} (hlegal : r.reply.legal = true) :
    (s.goodReply r).Underway := by
  cases hholding : s.holding with
  | none =>
    rw [goodReply_held r hholding]
    exact { h with
      holdingLegal := fun r' hr' => Option.some.inj hr' ▸ hlegal
      configEmpty := fun hmode => absurd hmode h.outside }
  | some held =>
    rw [goodReply_overrun r hholding]
    exact h.raise _

/-- R108: what is read to its end is within its ranges. -/
theorem readReply_legal {ldi : List Bool} {bytes : List Byte} {reply : Reply} (hread : readReply ldi = .complete bytes reply) :
    reply.legal = true := by
  unfold readReply at hread
  dsimp only at hread
  split at hread
  · cases hread
    rfl
  · split at hread
    · cases hread
    next hlen =>
      split at hread
      · cases hread
      · cases hread
        have hbound : bits (sample ldi 0) 5 2 < 4 := Nat.mod_lt _ (by decide)
        have hpayload : bits (sample ldi 0) 5 2 ≤ 2 := by omega
        simpa [Reply.legal, samples] using hpayload
  · cases hread
    have hbound : bits (sample ldi 1) 0 3 < 8 := Nat.mod_lt _ (by decide)
    refine decide_eq_true fun hzero => ?_
    have hval := congrArg Fin.val hzero
    simp only [Fin.ofNat, Fin.val_zero] at hval
    omega
  · cases hread

/-- R105: at most two bytes are in the shift register when an invalid field shows. -/
theorem readReply_framing_length {ldi : List Bool} {bytes : List Byte} (hread : readReply ldi = .framing bytes) :
    bytes.length ≤ 2 := by
  unfold readReply at hread
  dsimp only at hread
  split at hread
  · cases hread
  · split at hread
    · cases hread
      simp [samples]
    · split at hread <;> cases hread
      simp [samples]
  · cases hread
  · cases hread
    simp [samples]

/-! ## A transmitted frame -/

theorem framesQueued_setNode {n : Node} {r : NodeRecord} (hr : r.state ≠ .joining ∧ r.state ≠ .leaving)
    (hadmit : ∀ m : Node, m ≠ n → s.nodes[m].state = .joining → ∃ f ∈ s.queue, f.dest = m ∧ f.body.kind = .admitFrame)
    (heject : ∀ m : Node, m ≠ n → s.nodes[m].state = .leaving → ∃ f ∈ s.queue, f.dest = m ∧ f.body.kind = .eject) :
    (s.setNode n r).FramesQueued := by
  refine ⟨fun m hm => ?_, fun m hm => ?_⟩ <;> rw [setNode_nodes_getElem] at hm <;> split at hm
  next => exact absurd hm hr.1
  next hne => exact hadmit m hne hm
  next => exact absurd hm hr.2
  next hne => exact heject m hne hm

/-- Once the frame is reported, what is owed to the nodes is in the queue (R134, R139). -/
theorem reportTransmission_framesQueued (h : s.Safe) {f : TxFrame} (hframe : s.txBuffer = some f) :
    (s.reportTransmission f).FramesQueued := by
  have hadmit (n : Node) (hother : ¬ (f.kind = .admitFrame ∧ f.dest = n)) (hjoining : s.nodes[n].state = .joining) :
      ∃ g ∈ s.queue, g.dest = n ∧ g.body.kind = .admitFrame :=
    (h.admitUnderway n hjoining).resolve_right fun ⟨_, g, hg, hdest, hkind⟩ => by
      obtain rfl : f = g := Option.some.inj (hframe.symm.trans hg)
      exact hother ⟨hkind, hdest⟩
  have heject (n : Node) (hother : ¬ (f.kind = .eject ∧ f.dest = n)) (hleaving : s.nodes[n].state = .leaving) :
      ∃ g ∈ s.queue, g.dest = n ∧ g.body.kind = .eject :=
    (h.ejectUnderway n hleaving).resolve_right fun ⟨_, g, hg, hdest, hkind⟩ => by
      obtain rfl : f = g := Option.some.inj (hframe.symm.trans hg)
      exact hother ⟨hkind, hdest⟩
  have hsettled {r : NodeRecord} (hr : r.state ≠ .joining ∧ r.state ≠ .leaving) (c : LocalCondition) :
      ((s.setNode f.dest r).raise c).FramesQueued := by
    obtain ⟨ha, he⟩ := framesQueued_setNode hr (fun m hne => hadmit m fun hf => hne hf.2.symm)
      fun m hne => heject m fun hf => hne hf.2.symm
    exact ⟨ha, he⟩
  cases hkind : f.kind with
  | admitFrame =>
    rw [reportTransmission_admit hkind]
    split
    next => exact hsettled (by simp) _
    next hnot => exact ⟨fun n hn => hadmit n (fun hf => hnot (hf.2 ▸ hn)) hn, fun n => heject n (by simp [hkind])⟩
  | eject =>
    rw [reportTransmission_eject hkind]
    split
    next => exact hsettled (by simp) _
    next hnot => exact ⟨fun n => hadmit n (by simp [hkind]), fun n hn => heject n (fun hf => hnot (hf.2 ▸ hn)) hn⟩
  | done | poll | probe =>
    rw [State.reportTransmission, hkind]
    exact ⟨fun n => hadmit n (by simp [hkind]), fun n => heject n (by simp [hkind])⟩

end

/-! ## Loads -/

section
variable {s : State}

/-- The laws hold where a choice is made (R114). -/
structure State.Choosing (s : State) : Prop extends s.Safe where
  run : s.mode = .run
  idle : s.link = .idle

theorem State.Choosing.framesQueued (h : s.Choosing) : s.FramesQueued :=
  h.toSafe.framesQueued fun hsend => by cases h.idle.symm.trans hsend

/-- The load of a frame that leaves in the queue what is owed to every other node. -/
theorem State.Choosing.loadFrame (h : s.Choosing) {queue : List OutFrame}
    (hsub : List.Sublist queue s.queue) {outCount : Nat} (hcount : outCount ≤ 2) {dest : Node} {kind : FrameKind} (arg : Byte)
    (hadmit : ∀ n : Node, s.nodes[n].state = .joining →
      (∃ f ∈ queue, f.dest = n ∧ f.body.kind = .admitFrame) ∨ (dest = n ∧ kind = .admitFrame))
    (heject : ∀ n : Node, s.nodes[n].state = .leaving →
      (∃ f ∈ queue, f.dest = n ∧ f.body.kind = .eject) ∨ (dest = n ∧ kind = .eject)) :
    (State.loadFrame { s with queue, outCount } dest kind arg).Safe := by
  obtain ⟨hstop, -, hwalk, hclear⟩ := h.modeConsistent
  obtain ⟨hrecords, hdiv, hwaitLow, hwaitHigh, hlimitLow, hlimitHigh, -⟩ := h.recordsLegal
  exact { h with
    queueBounded := hsub.length_le.trans h.queueBounded
    recordsLegal := ⟨hrecords, hdiv, hwaitLow, hwaitHigh, hlimitLow, hlimitHigh, hcount⟩
    creditsBounded := fun hclearing n => by
      obtain ⟨hle, hzero⟩ := h.creditsBounded hclearing n
      have hheld : State.heldCredits { s with queue } n ≤ s.heldCredits n := Nat.add_le_add_left hsub.countP_le _
      exact ⟨hheld.trans hle, fun hinactive => Nat.eq_zero_of_le_zero (hheld.trans_eq (hzero hinactive))⟩
    linkConsistent := ⟨nofun, fun _ => rfl, by simp [State.loadFrame], fun _ => rfl, Nat.zero_le _⟩
    timerConsistent := ⟨fun _ => rfl, nofun, nofun, nofun⟩
    modeConsistent := ⟨hstop, fun _ => by simp [State.loadFrame], hwalk, hclear⟩
    configEmpty := fun hconfig => by cases h.run.symm.trans hconfig
    pausedIdle := fun hpaused => by cases h.run.symm.trans hpaused
    admitUnderway := fun n hjoining => (hadmit n hjoining).imp_right fun hframe => ⟨rfl, _, rfl, hframe⟩
    ejectUnderway := fun n hleaving => (heject n hleaving).imp_right fun hframe => ⟨rfl, _, rfl, hframe⟩ }

/-- The load of a POLL or a PROBE takes nothing from the queue. -/
theorem State.Choosing.loadWindow (h : s.Choosing) (dest : Node) (kind : FrameKind) (arg : Byte) :
    (State.loadFrame { s with outCount := 0 } dest kind arg).Safe := by
  obtain ⟨hadmit, heject⟩ := h.framesQueued
  exact h.loadFrame (.refl _) (Nat.zero_le _) arg (fun n hn => .inl (hadmit n hn)) fun n hn => .inl (heject n hn)

/-! ## The choice -/

/-- A frame that is owed passes the head check (R120). -/
theorem owed_sendable {f : OutFrame} {n : Node} (hdest : f.dest = n)
    (howed : (s.nodes[n].state = .joining ∧ f.body.kind = .admitFrame) ∨ f.body.kind = .eject) :
    f.sendable s.nodes[f.dest].state = true := by
  subst hdest
  exact sendable_iff.mpr (howed.elim (fun ⟨hjoining, hkind⟩ => .inr (.inr ⟨hkind, hjoining⟩)) .inl)

theorem State.Choosing.emptyQueue (h : s.Choosing) (hhead : takeHead s.nodes s.queue = none) :
    State.Choosing { s with queue := [] } := by
  obtain ⟨hadmit, heject⟩ := h.framesQueued
  have hnone := takeHead_none hhead
  refine { h.dropFrames (List.nil_sublist _) (fun n hn => ?_) fun n hn => ?_ with run := h.run, idle := h.idle }
  · obtain ⟨f, hf, hdest, hkind⟩ := hadmit n hn
    exact absurd (owed_sendable hdest (.inl ⟨hn, hkind⟩)) (Bool.eq_false_iff.mp (hnone f hf))
  · obtain ⟨f, hf, hdest, hkind⟩ := heject n hn
    exact absurd (owed_sendable (s := s) hdest (.inr hkind)) (Bool.eq_false_iff.mp (hnone f hf))

theorem State.Choosing.loadHead (h : s.Choosing) (hcount : s.outCount < 2) {f : OutFrame} {rest : List OutFrame}
    (hhead : takeHead s.nodes s.queue = some (f, rest)) :
    (State.loadFrame { s with queue := rest, outCount := s.outCount + 1 } f.dest f.body.kind f.body.arg).Safe := by
  obtain ⟨hadmit, heject⟩ := h.framesQueued
  obtain ⟨dropped, hqueue, hdropped, -⟩ := takeHead_some hhead
  have hkept {n : Node} {kind : FrameKind} {g : OutFrame} (hg : g ∈ s.queue) (hdest : g.dest = n) (hkind : g.body.kind = kind)
      (hsend : g.sendable s.nodes[g.dest].state = true) :
      (∃ g ∈ rest, g.dest = n ∧ g.body.kind = kind) ∨ (f.dest = n ∧ f.body.kind = kind) := by
    rw [hqueue, List.mem_append, List.mem_cons] at hg
    rcases hg with hg | rfl | hg
    · exact absurd hsend (Bool.eq_false_iff.mp (hdropped g hg))
    · exact .inr ⟨hdest, hkind⟩
    · exact .inl ⟨g, hg, hdest, hkind⟩
  refine h.loadFrame (hqueue ▸ (List.sublist_cons_self f rest).trans (List.sublist_append_right _ _)) hcount _
    (fun n hn => ?_) fun n hn => ?_
  · obtain ⟨g, hg, hdest, hkind⟩ := hadmit n hn
    exact hkept hg hdest hkind (owed_sendable hdest (.inl ⟨hn, hkind⟩))
  · obtain ⟨g, hg, hdest, hkind⟩ := heject n hn
    exact hkept hg hdest hkind (owed_sendable hdest (.inr hkind))

theorem State.Choosing.pollOrProbe (h : s.Choosing) : s.pollOrProbe.Safe := by
  unfold State.pollOrProbe
  split
  next n _ => exact { h.loadWindow n .poll _ with }
  next =>
    dsimp only
    split
    next n _ => exact { h.loadWindow n .probe 0x00#8 with }
    next =>
      split
      next n _ => exact { h.loadWindow n .poll _ with }
      next => exact { h with }

/-- What a step of a choice may give: the laws, and where the choice goes on, its place too. -/
def ChoiceStep.Keeps : ChoiceStep → Prop
  | .loaded t => t.Safe
  | .goOn t => t.Choosing

theorem State.Choosing.stepOutbound (h : s.Choosing) : s.stepOutbound.Keeps := by
  unfold State.stepOutbound
  split
  · exact h
  next hcount =>
    cases hhead : takeHead s.nodes s.queue with
    | some found => exact h.loadHead (not_le.mp hcount) hhead
    | none => exact h.emptyQueue hhead

theorem State.Choosing.stepBurst (h : s.Choosing) : s.stepBurst.Keeps := by
  unfold State.stepBurst
  split
  next n _ =>
    split
    · exact { h.loadWindow n .poll _ with }
    · exact { h with }
  · exact h
  · exact h

theorem State.Choosing.choose (h : s.Choosing) : s.choose.Safe := by
  have houtbound := h.stepOutbound
  cases hstep : s.stepOutbound with
  | loaded t =>
    rw [choose_outbound hstep]
    rwa [hstep] at houtbound
  | goOn t =>
    rw [hstep] at houtbound
    have hburst := State.Choosing.stepBurst houtbound
    cases hnext : t.stepBurst with
    | loaded u =>
      rw [choose_burst hstep hnext]
      rwa [hnext] at hburst
    | goOn u =>
      rw [choose_poll hstep hnext]
      rw [hnext] at hburst
      exact State.Choosing.pollOrProbe hburst

end

end Sys2Proof.Machine
end

section
/-! SUPPORT. The happenings and the commands under the laws: each of them, whatever its state, ends in a next state that keeps the
laws. -/

namespace Sys2Proof.Machine

/-! ## Outcomes that keep the laws -/

/-- The outcome is a next state that keeps the laws. -/
def EndsSafe (o : Host.Outcome State Fault Refusal) : Prop := ∃ t, o = .next t ∧ t.Safe

namespace EndsSafe

theorem next {s : State} (h : s.Safe) : EndsSafe (.next s) := ⟨s, rfl, h⟩

theorem settle {x : Except Fault State} (h : Yields State.Underway x) : EndsSafe (settle x) := by
  obtain ⟨t, rfl, ht⟩ := h
  exact next ht.toSafe

/-- A command is lost with CMDLOST, or taken with the Command Unit idle (R155, R156). -/
theorem taken {s : State} {o : Host.Outcome State Fault Refusal} (h : s.Safe) (htaken : s.command = .idle → EndsSafe o) :
    EndsSafe (s.taken o) := by
  by_cases hidle : s.command = .idle
  · rw [taken_idle hidle]
    exact htaken hidle
  · rw [taken_busy hidle]
    exact next { h with }

end EndsSafe

/-! ## The Link Engine -/

section
variable {s : State}

theorem execFrameTransmitted_safe (h : s.Safe) : EndsSafe (execFrameTransmitted s) := by
  by_cases hlink : s.link = .send
  swap
  · rw [execFrameTransmitted_elsewhere hlink]
    exact .next h
  obtain ⟨-, hfull, -⟩ := h.linkConsistent
  obtain ⟨f, hframe⟩ := Option.isSome_iff_exists.mp (hfull hlink)
  have hreported : (s.reportTransmission f).Underway := (h.underway (by simp [hlink])).reportTransmission f
  have hkept := reportTransmission_writesTables (s := s) f
  have hbuffer : (s.reportTransmission f).txBuffer = some f := (congrArg State.txBuffer hkept).trans hframe
  have hlink' : (s.reportTransmission f).link = .send := (congrArg State.link hkept).trans hlink
  have hshift : (s.reportTransmission f).shiftReg = [] := hreported.shiftReg_empty (by simp [hlink'])
  rw [execFrameTransmitted_reports hlink hframe]
  refine .next (State.Underway.toSafe (hreported.moveOn (by simp [hlink']) (reportTransmission_framesQueued h hframe) ?_ ?_ ?_))
  · split <;> simp
  · cases hwindow : f.window with
    | none => exact ⟨by simp, by simp, by simp, fun _ => hshift, by simp [hshift]⟩
    | some slot => exact ⟨by simp, by simp, fun _ => by simp [hbuffer, hwindow], fun _ => hshift, by simp [hshift]⟩
  · cases f.window <;> exact ⟨by simp, by simp, by simp, by simp⟩

/-- From WAIT to DRAIN the transmit buffer holds a frame that opens a window (R101). -/
theorem State.Safe.exists_slot (h : s.Safe) (hlink : s.link = .wait ∨ s.link = .read ∨ s.link = .drain) :
    ∃ f slot, s.txBuffer = some f ∧ f.window = some slot := by
  obtain ⟨-, -, hwindow, -⟩ := h.linkConsistent
  obtain ⟨slot, hslot⟩ := Option.isSome_iff_exists.mp (hwindow hlink)
  obtain ⟨f, hframe, hslot⟩ := Option.bind_eq_some_iff.mp hslot
  exact ⟨f, slot, hframe, hslot⟩

theorem execReplyWaitExpiry_safe (h : s.Safe) : EndsSafe (execReplyWaitExpiry s) := by
  by_cases hlink : s.link = .wait
  swap
  · rw [execReplyWaitExpiry_elsewhere hlink]
    exact .next h
  obtain ⟨f, slot, hframe, hwindow⟩ := h.exists_slot (.inl hlink)
  rw [execReplyWaitExpiry_guards hframe hwindow hlink, h.shiftReg_empty (by simp [hlink])]
  exact .next (((h.underway (by simp [hlink])).slotFault f.dest slot).closeWindow
    (.inl ((slotFault_link ..).trans hlink)) _).toSafe

theorem execDrainEnd_safe (h : s.Safe) : EndsSafe (execDrainEnd s) := by
  by_cases hlink : s.link = .drain
  swap
  · rw [execDrainEnd_elsewhere hlink]
    exact .next h
  obtain ⟨f, slot, hframe, hwindow⟩ := h.exists_slot (.inr (.inr hlink))
  rw [execDrainEnd_guards hframe hwindow hlink]
  exact .next (((h.underway (by simp [hlink])).badFrame f.dest slot).closeWindow
    (.inr (.inr ((badFrame_link ..).trans hlink))) _).toSafe

theorem execReplyReceived_safe (h : s.Safe) (ldi : List Bool) : EndsSafe (execReplyReceived ldi s) := by
  by_cases hlink : s.link = .read
  swap
  · rw [execReplyReceived_elsewhere hlink]
    exact .next h
  obtain ⟨f, slot, hframe, hwindow⟩ := h.exists_slot (.inr (.inl hlink))
  cases hread : readReply ldi with
  | framing bytes =>
    simp only [execReplyReceived, hlink, slot_eq hframe hwindow, hread]
    exact .next h
  | complete bytes reply =>
    have hunderway := h.underway (by simp [hlink])
    rw [execReplyReceived_guards hframe hwindow hlink hread]
    split
    · rw [goodReply_assemble]
      have hreply : (s.goodReply ⟨f.dest, slot, reply⟩).Underway := hunderway.goodReply (readReply_legal hread)
      exact .next (hreply.closeWindow (.inr (.inl ((goodReply_link ..).trans hlink))) _).toSafe
    · rw [badFrame_assemble]
      exact .next ((hunderway.badFrame f.dest slot).closeWindow (.inr (.inl ((badFrame_link ..).trans hlink))) _).toSafe

theorem execStartBit_safe (h : s.Safe) (k : Nat) : EndsSafe (execStartBit k s) := by
  by_cases hstarts : s.link = .wait ∧ 1 ≤ k ∧ k ≤ s.slotWait
  swap
  · rw [execStartBit_elsewhere hstarts]
    exact .next h
  obtain ⟨hlink, hfirst, hlast⟩ := hstarts
  obtain ⟨-, -, hwindow, -⟩ := h.linkConsistent
  rw [execStartBit_opens hlink hfirst hlast]
  have hread := (h.underway (by simp [hlink])).moveOn (link := .read) (bitTimer := 25 + k) (shiftReg := []) (by simp [hlink])
    (h.framesQueued (by simp [hlink])) nofun ⟨nofun, nofun, fun _ => hwindow (.inl hlink), fun _ => rfl, Nat.zero_le _⟩
    ⟨by simp, nofun, fun _ => ⟨by simp only; omega, by simp only; omega⟩, nofun⟩
  exact .next hread.toSafe

theorem execFramingError_safe (h : s.Safe) (ldi : List Bool) : EndsSafe (execFramingError ldi s) := by
  by_cases hlink : s.link = .read
  swap
  · rw [execFramingError_elsewhere hlink]
    exact .next h
  cases hread : readReply ldi with
  | complete bytes reply =>
    simp only [execFramingError, hlink, hread]
    exact .next h
  | framing bytes =>
    obtain ⟨-, -, hwindow, -⟩ := h.linkConsistent
    obtain ⟨-, -, htimer, -⟩ := h.timerConsistent
    obtain ⟨hlow, hhigh⟩ := htimer hlink
    rw [execFramingError_drains hlink hread]
    have hdrain := (h.underway (by simp [hlink])).moveOn (link := .drain) (bitTimer := s.bitTimer + 8 * bytes.length)
      (shiftReg := bytes) (by simp [hlink]) (h.framesQueued (by simp [hlink])) nofun
      ⟨nofun, nofun, fun _ => hwindow (.inr (.inl hlink)), fun hdrain => absurd rfl hdrain, readReply_framing_length hread⟩
      ⟨by simp, nofun, nofun, fun _ => ⟨by simp only; omega, by simp only; omega⟩⟩
    exact .next hdrain.toSafe

theorem execSchedulerChoice_safe (h : s.Safe) : EndsSafe (execSchedulerChoice s) := by
  unfold execSchedulerChoice
  split
  next hplace => exact .next (State.Choosing.choose { h with run := hplace.1, idle := hplace.2 })
  next => exact .next h

/-! ## The take and the posting -/

theorem execAdmissionTake_safe (h : s.Safe) : EndsSafe (execAdmissionTake s) := by
  cases hholding : s.holding with
  | none =>
    rw [execAdmissionTake_idle (.inl hholding)]
    exact .next h
  | some r =>
    by_cases hheld : s.retiring ≠ none
    · rw [execAdmissionTake_idle (.inr hheld)]
      exact .next h
    · rw [not_ne_iff] at hheld
      have houtside : s.mode ≠ .config := fun hmode => by
        obtain ⟨-, -, hempty, -⟩ := h.configEmpty hmode
        cases hholding.symm.trans hempty
      have htaken : State.Underway { s with holding := none } :=
        { h with
          holdingLegal := nofun
          configEmpty := fun hmode => absurd hmode houtside
          outside := houtside }
      simp only [execAdmissionTake, hholding, admissionHeld_eq_false hheld, Bool.false_eq_true, if_false]
      exact .settle (handleReply_yields htaken hheld (h.holdingLegal r hholding))

theorem execLocalPosting_safe (h : s.Safe) (c : LocalCondition) : EndsSafe (execLocalPosting c s) := by
  unfold execLocalPosting
  split
  next hwaits =>
    have houtside : s.mode ≠ .config := fun hmode => by
      obtain ⟨-, -, -, hraised, -⟩ := h.configEmpty hmode
      simp [hraised] at hwaits
    have hwaiting : State.Underway { s with raised := s.raised.erase c } :=
      { h.withRaised fun hmode => absurd hmode houtside with outside := houtside }
    exact .settle (hwaiting.postCondition c)
  next => exact .next h

end

/-! ## Modes -/

section
variable {s : State}

/-- No walk is under way: the Command Unit is idle or in STOP. -/
def CommandUnit.Still (c : CommandUnit) : Prop := c = .idle ∨ c = .stop

theorem retiring_of_still (hstill : s.command.Still) : s.retiring = none := by
  rcases hstill with hcommand | hcommand <;> rw [State.retiring, hcommand]

theorem clearing_of_still (hstill : s.command.Still) : s.clearing = none := by
  rcases hstill with hcommand | hcommand <;> rw [State.clearing, hcommand]

/-- A mode other than CONFIG entered with no walk under way before or after. -/
theorem State.Safe.changeMode (h : s.Safe) (hbefore : s.command.Still) {mode : Mode} {command : CommandUnit}
    (hafter : command.Still) (houtside : mode ≠ .config) (hstop : command = .stop ↔ mode = .stopping)
    (hflight : mode = .stopping → s.link ≠ .idle) (hpaused : mode = .paused → s.link = .idle) :
    State.Underway { s with mode, command } :=
  have hretiring := retiring_of_still hbefore
  { h with
    staleHeldRetiring := fun i e he hheld hstale => by simp [h.no_staleHeld hretiring he hheld] at hstale
    creditsBounded := fun _ => h.creditsBounded (clearing_of_still hbefore)
    modeConsistent := ⟨hstop, hflight, fun hwalk => absurd (retiring_of_still (s := { s with command }) hafter) hwalk,
      fun hwalk => absurd (clearing_of_still (s := { s with command }) hafter) hwalk⟩
    configEmpty := fun hconfig => absurd hconfig houtside
    pausedIdle := hpaused
    outside := houtside }

theorem execStart_safe (h : s.Safe) : EndsSafe (execStart s) := by
  refine .taken h fun hidle => ?_
  split
  · have hrun := h.changeMode (.inl hidle) (mode := .run) (command := s.command) (.inl hidle) nofun (by simp [hidle]) nofun nofun
    exact .next { hrun with }
  · exact .next { h with }

theorem execResume_safe (h : s.Safe) : EndsSafe (execResume s) := by
  refine .taken h fun hidle => ?_
  split
  · have hrun := h.changeMode (.inl hidle) (mode := .run) (command := s.command) (.inl hidle) nofun (by simp [hidle]) nofun nofun
    exact .next { hrun with }
  · exact .next { h with }

theorem execStop_safe (h : s.Safe) : EndsSafe (execStop s) := by
  refine .taken h fun hidle => ?_
  split
  · split
    next hflight =>
      have hstopping := h.changeMode (.inl hidle) (mode := .stopping) (command := .stop) (.inr rfl) nofun (by simp)
        (fun _ => of_decide_eq_true hflight) nofun
      exact .next hstopping.toSafe
    next hflight =>
      have hlink : s.link = .idle := not_ne_iff.mp fun hne => hflight (decide_eq_true hne)
      have hpaused := h.changeMode (.inl hidle) (mode := .paused) (command := .idle) (.inl rfl) nofun (by simp) nofun
        fun _ => hlink
      exact .settle (endStop_yields rfl hpaused)
  · exact .next { h with }

/-- The end of the slot with the link idle and the transmit buffer empty (R100, R101). -/
theorem State.Safe.idleLink (h : s.Safe) (hlink : s.link = .guard) (hmode : s.mode ≠ .stopping) :
    State.Safe { s.enterLink .idle 0 with txBuffer := none } := by
  have hshift : s.shiftReg = [] := h.shiftReg_empty (by simp [hlink])
  exact h.moveLink (h.framesQueued (by simp [hlink])) (shiftReg := s.shiftReg)
    ⟨fun _ => rfl, nofun, by simp, fun _ => hshift, by simp [hshift]⟩ ⟨fun _ => rfl, nofun, nofun, nofun⟩
    (fun hstopping => absurd hstopping hmode) (fun _ => rfl) fun _ => ⟨.inl rfl, rfl⟩

theorem execGuardEnd_safe (h : s.Safe) : EndsSafe (execGuardEnd s) := by
  unfold execGuardEnd
  split
  next hlink =>
    dsimp only
    split
    next hmode =>
      obtain ⟨hstop, -⟩ := h.modeConsistent
      have hrun := h.changeMode (.inr (hstop.mpr hmode)) (mode := .run) (command := .idle) (.inl rfl) nofun (by simp) nofun nofun
      have hpaused := (hrun.idleLink hlink nofun).changeMode (.inl rfl) (mode := .paused) (command := .idle) (.inl rfl) nofun
        (by simp) nofun fun _ => rfl
      exact .settle (endStop_yields rfl hpaused)
    next hmode => exact .next (h.idleLink hlink hmode)
  next => exact .next h

/-! ## RESTART -/

theorem NodeRecord.Legal.restarted {r : NodeRecord} (h : r.Legal) : r.restarted.Legal := by
  obtain ⟨-, hlimit, -⟩ := h
  exact ⟨by simp [NodeRecord.restarted, NodeRecord.reset], hlimit, Nat.zero_le _,
    by simp [NodeRecord.restarted, NodeRecord.reset], fun _ => ⟨rfl, rfl, rfl⟩, nofun, fun _ => ⟨rfl, rfl, rfl⟩⟩

theorem beginRestart_restarted (s : State) (n : Node) : s.beginRestart.nodes[n] = s.nodes[n].restarted := mapSlots_getElem ..

/-- R111: an idle link stays idle, a slot in flight is cut off into its guard. -/
theorem beginRestart_link (s : State) :
    (s.beginRestart.link = .idle ∧ s.link = .idle) ∨ s.beginRestart.link = .guard := by
  simp only [State.beginRestart, cutOff_eq]
  by_cases hlink : s.link = .idle <;> simp [hlink]

theorem State.Safe.beginRestart_linkLaws (h : s.Safe) :
    s.beginRestart.LinkConsistent ∧ s.beginRestart.TimerConsistent := by
  obtain ⟨htimer, -⟩ := h.timerConsistent
  rcases beginRestart_link s with ⟨hidle, hlink⟩ | hguard
  · have hzero : s.bitTimer = 0 := htimer (.inl hlink)
    simp only [State.LinkConsistent, State.TimerConsistent, hidle]
    exact ⟨⟨fun _ => rfl, nofun, by simp, fun _ => rfl, Nat.zero_le _⟩, fun _ => hzero, nofun, nofun, nofun⟩
  · simp only [State.LinkConsistent, State.TimerConsistent, hguard]
    exact ⟨⟨nofun, nofun, by simp, fun _ => rfl, Nat.zero_le _⟩, by simp, nofun, nofun, nofun⟩

/-- R162: only pending entries are left, for the walk that follows. -/
theorem State.Safe.beginRestart (h : s.Safe) (hidle : s.command = .idle) : s.beginRestart.Safe := by
  have hcleared : State.Safe { s with stack := [] } := h.remove (fun _ _ he => he) (List.nil_sublist _) rfl
  obtain ⟨hrecords, hdiv, hwaitLow, hwaitHigh, hlimitLow, hlimitHigh, -⟩ := h.recordsLegal
  obtain ⟨hlink, htimer⟩ := h.beginRestart_linkLaws
  have habsent (n : Node) : s.beginRestart.nodes[n].state = .absent := congrArg NodeRecord.state (beginRestart_restarted s n)
  exact { hcleared with
    queueBounded := Nat.zero_le _
    staleHeldRetiring := fun i e he hheld hstale => by
      simp [h.no_staleHeld (retiring_of_still (.inl hidle)) he hheld] at hstale
    recordsLegal := ⟨fun n => by
      rw [beginRestart_restarted]
      exact ⟨(hrecords n).1.restarted, nofun⟩, hdiv, hwaitLow, hwaitHigh, hlimitLow, hlimitHigh, Nat.zero_le _⟩
    creditsBounded := nofun
    linkConsistent := hlink
    timerConsistent := htimer
    modeConsistent := ⟨⟨nofun, nofun⟩, nofun, absurd rfl, fun _ => rfl⟩
    configEmpty := fun _ => ⟨rfl, rfl, rfl, rfl, habsent, (beginRestart_link s).imp_left And.left, rfl,
      fun i _ => ⟨0, rfl, Fin.zero_le i⟩⟩
    pausedIdle := nofun
    admitUnderway := fun n hjoining => by cases (habsent n).symm.trans hjoining
    ejectUnderway := fun n hleaving => by cases (habsent n).symm.trans hleaving
    holdingLegal := nofun }

theorem execRestart_safe (h : s.Safe) : EndsSafe (execRestart s) :=
  .taken h fun hidle => .next (h.beginRestart hidle)

end

/-! ## The walks -/

section
variable {s : State}

theorem nextSlot_eq_some {i j : Fin 32} (h : nextSlot i = some j) : j.val = i.val + 1 := by
  unfold nextSlot at h
  split at h
  · cases h
    rfl
  · cases h

theorem nextSlot_eq_none {i : Fin 32} (h : nextSlot i = none) : i.val = 31 := by
  unfold nextSlot at h
  split at h
  · cases h
  · omega

theorem clearSlot_full {i k : Fin 32} (h : (s.setSlot i none).table[k] ≠ none) : k ≠ i ∧ s.table[k] ≠ none := by
  rw [State.setSlot_table, table_set_getElem] at h
  split at h
  next => exact absurd rfl h
  next hne => exact ⟨hne, h⟩

/-- What the RESTART walk finds: CONFIG, with nothing pending in the slots that it has visited (R41). -/
theorem State.Safe.clearWalk (h : s.Safe) {i : Fin 32} (hcommand : s.command = .restart i) :
    s.mode = .config ∧ s.mode ≠ .stopping ∧ ∀ k : Fin 32, s.table[k] ≠ none → i ≤ k := by
  have hclearing : s.clearing = some i := by rw [State.clearing, hcommand]
  obtain ⟨-, -, -, hclear⟩ := h.modeConsistent
  have hmode := hclear (by simp [hclearing])
  obtain ⟨-, -, -, -, -, -, -, hslots⟩ := h.configEmpty hmode
  refine ⟨hmode, by simp [hmode], fun k hfull => ?_⟩
  obtain ⟨next, hnext, hle⟩ := hslots k hfull
  obtain rfl : i = next := Option.some.inj (hclearing.symm.trans hnext)
  exact hle

theorem clearStep_inner (h : s.Safe) {i j : Fin 32} (hcommand : s.command = .restart i) (hj : j.val = i.val + 1) :
    State.Safe { s.setSlot i none with command := .restart j } := by
  obtain ⟨hmode, hnot, hslots⟩ := h.clearWalk hcommand
  obtain ⟨hstack, hqueue, hholding, hraised, hnodes, hlink, hbuffer, -⟩ := h.configEmpty hmode
  have hretiring : s.retiring = none := by rw [State.retiring, hcommand]
  exact { h.clearSlot i with
    staleHeldRetiring := fun k e he hheld hstale => by
      obtain ⟨w, hw, -⟩ := (h.clearSlot i).staleHeldRetiring k e he hheld hstale
      cases hretiring.symm.trans hw
    creditsBounded := nofun
    modeConsistent := ⟨⟨nofun, (absurd · hnot)⟩, (absurd · hnot), absurd rfl, fun _ => hmode⟩
    configEmpty := fun _ => ⟨hstack, hqueue, hholding, hraised, hnodes, hlink, hbuffer, fun k hfull => by
      obtain ⟨hne, hfull⟩ := clearSlot_full hfull
      have hle := hslots k hfull
      exact ⟨j, rfl, by omega⟩⟩ }

/-- The last step leaves nothing pending, so no credit is held by the nodes, which are ABSENT all (R41, R128). -/
theorem clearStep_last (h : s.Safe) {i : Fin 32} (hcommand : s.command = .restart i) (hi : i.val = 31) :
    State.Safe { s.setSlot i none with command := .idle, lastTag := 63, res := .ok } := by
  obtain ⟨hmode, hnot, hslots⟩ := h.clearWalk hcommand
  obtain ⟨hstack, hqueue, hholding, hraised, hnodes, hlink, hbuffer, -⟩ := h.configEmpty hmode
  obtain ⟨hunique, hzero, -⟩ := (h.clearSlot i).tagsUnique
  have hempty (k : Fin 32) : (s.setSlot i none).table[k] = none := by
    by_contra hfull
    obtain ⟨hne, hfull⟩ := clearSlot_full hfull
    have hle := hslots k hfull
    omega
  have hpending : (s.setSlot i none).pendingEntries = [] := pendingEntries_eq_nil hempty
  have hheld (n : Node) : (s.setSlot i none).heldCredits n = 0 := by
    simp [State.heldCredits, hpending, hstack, hqueue]
  exact { h.clearSlot i with
    tagsUnique := ⟨hunique, hzero, (by decide : (63 : Tag) ≠ 0)⟩
    staleHeldRetiring := fun k e he => by cases (hempty k).symm.trans he
    creditsBounded := fun _ n => ⟨(hheld n).trans_le (Nat.zero_le _), fun _ => hheld n⟩
    modeConsistent := ⟨⟨nofun, (absurd · hnot)⟩, (absurd · hnot), absurd rfl, absurd rfl⟩
    configEmpty := fun _ => ⟨hstack, hqueue, hholding, hraised, hnodes, hlink, hbuffer, fun k hfull => absurd (hempty k) hfull⟩ }

theorem execRestartClearStep_safe (h : s.Safe) : EndsSafe (execRestartClearStep s) := by
  unfold execRestartClearStep
  cases hcommand : s.command with
  | restart i =>
    dsimp only
    split
    next j hj => exact .next (clearStep_inner h hcommand (nextSlot_eq_some hj))
    next hlast => exact .next (clearStep_last h hcommand (nextSlot_eq_none hlast))
  | idle | stop | retire => exact .next h

/-- After the visit of a slot the stale HELD entries of the node are pending in later slots only (R39, R124). -/
theorem purgeSlot_staleHeld (h : s.Safe) {n : Node} {i : Fin 32} (hcommand : s.command = .retire n i) {k : Fin 32} {e : Entry}
    (he : (s.purgeSlot n i).table[k] = some e) (hheld : e.kind = .held) (hstale : e.stale = true) :
    e.ofNode n = true ∧ i < k := by
  have hretiring : s.retiring = some (n, i) := by rw [State.retiring, hcommand]
  obtain ⟨w, hw, hnode, hle⟩ := (h.purgeSlot n i).staleHeldRetiring k e he hheld hstale
  obtain rfl : (n, i) = w := Option.some.inj (hretiring.symm.trans hw)
  refine ⟨hnode, lt_of_le_of_ne hle fun heq => ?_⟩
  rw [purgeSlot_getElem, if_pos heq.symm, Option.filter_eq_some_iff] at he
  simp only [hnode] at he
  cases he.2

theorem State.Safe.retireWalk (h : s.Safe) {n : Node} {i : Fin 32} (hcommand : s.command = .retire n i) :
    (s.mode = .run ∨ s.mode = .paused) ∧ s.mode ≠ .stopping ∧ s.mode ≠ .config ∧ s.clearing = none := by
  obtain ⟨-, -, hwalk, -⟩ := h.modeConsistent
  have hmode := hwalk (by simp [State.retiring, hcommand])
  refine ⟨hmode, ?_, ?_, by rw [State.clearing, hcommand]⟩ <;> rcases hmode with hmode | hmode <;> simp [hmode]

theorem retireStep_inner (h : s.Safe) {n : Node} {i j : Fin 32} (hcommand : s.command = .retire n i)
    (hj : j.val = i.val + 1) : State.Safe { s.purgeSlot n i with command := .retire n j } := by
  obtain ⟨hmode, hnot, houtside, hclearing⟩ := h.retireWalk hcommand
  exact { h.purgeSlot n i with
    staleHeldRetiring := fun k e he hheld hstale => by
      obtain ⟨hnode, hlt⟩ := purgeSlot_staleHeld h hcommand he hheld hstale
      exact ⟨(n, j), rfl, hnode, by simp only; omega⟩
    creditsBounded := fun _ => (h.purgeSlot n i).creditsBounded hclearing
    modeConsistent := ⟨⟨nofun, (absurd · hnot)⟩, (absurd · hnot), fun _ => hmode, absurd rfl⟩
    configEmpty := (absurd · houtside) }

theorem retireStep_last (h : s.Safe) {n : Node} {i : Fin 32} (hcommand : s.command = .retire n i) (hi : i.val = 31) :
    State.Underway { s.purgeSlot n i with command := .idle, res := .ok } := by
  obtain ⟨hmode, hnot, houtside, hclearing⟩ := h.retireWalk hcommand
  exact { h.purgeSlot n i with
    staleHeldRetiring := fun k e he hheld hstale => by
      obtain ⟨-, hlt⟩ := purgeSlot_staleHeld h hcommand he hheld hstale
      omega
    creditsBounded := fun _ => (h.purgeSlot n i).creditsBounded hclearing
    modeConsistent := ⟨⟨nofun, (absurd · hnot)⟩, (absurd · hnot), absurd rfl, absurd rfl⟩
    configEmpty := (absurd · houtside)
    outside := houtside }

theorem execRetireWalkStep_safe (h : s.Safe) : EndsSafe (execRetireWalkStep s) := by
  unfold execRetireWalkStep
  cases hcommand : s.command with
  | retire n i =>
    dsimp only
    split
    next j hj => exact .next (retireStep_inner h hcommand (nextSlot_eq_some hj))
    next hlast => exact .settle (endRetire_yields (retireStep_last h hcommand (nextSlot_eq_none hlast)))
  | idle | stop | restart => exact .next h

end

/-! ## The commands of the host -/

section
variable {s : State}

theorem execClaim_safe (h : s.Safe) : EndsSafe (execClaim s) := by
  have hnull (reason : NullReason) (hdecision : s.claimDecision = .null reason) : EndsSafe (execClaim s) := by
    rw [execClaim_null hdecision]
    exact .next { h with }
  by_cases hmode : s.mode = .config
  · exact hnull _ (claimDecision_config hmode)
  have hunderway : s.Underway := { h with outside := hmode }
  by_cases hfull : 8 ≤ s.stack.length
  · exact hnull _ (claimDecision_stackFull hmode hfull)
  rw [not_le] at hfull
  cases hwinner : s.winner with
  | none => exact hnull .none (by rw [claimDecision_open hmode hfull, hwinner])
  | some found =>
    obtain ⟨i, e⟩ := found
    obtain ⟨he, -⟩ := winner_spec hwinner
    obtain ⟨hlegal, -⟩ := h.entriesLegal
    have hfrom := markAtClaim_from s e
    cases hauto : s.lineMap[e.source][e.line].auto with
    | true =>
      have hdecision := claimDecision_auto hmode hfull hwinner hauto
      split at hdecision
      · exact hnull _ hdecision
      next hroom =>
        rw [execClaim_auto hdecision]
        exact .next (hunderway.claimAuto he hfrom (Bool.eq_false_iff.mpr hroom)).toSafe
    | false =>
      rw [execClaim_ordinary (claimDecision_ordinary hmode hfull hwinner hauto)]
      exact .next (hunderway.claimOrdinary hwinner hfrom
        (markAtClaim_legal (hlegal e (mem_pendingEntries.mpr ⟨i, he⟩))) hfull).toSafe

theorem execComplete_safe (h : s.Safe) : EndsSafe (execComplete s) := by
  refine .taken h fun _ => ?_
  split
  · exact .next { h with }
  next hmode =>
    split
    · exact .next { h with }
    next x hnamed =>
      obtain ⟨tag, -, hfound⟩ := Option.bind_eq_some_iff.mp hnamed
      obtain ⟨rfl, -⟩ := stackTagged_split hfound
      exact .settle (State.Underway.completeEntry { h with outside := hmode } hfound)

theorem execCompleteTop_safe (h : s.Safe) : EndsSafe (execCompleteTop s) := by
  refine .taken h fun _ => ?_
  split
  · exact .next { h with }
  next hmode =>
    split
    · exact .next { h with }
    next x htop =>
      exact .settle (State.Underway.completeEntry (s := { s with arg0 := tagByte x.entry.tag }) { h with outside := hmode }
        (stackTagged_top h.tagsUnique htop))

theorem execDiscard_safe (h : s.Safe) : EndsSafe (execDiscard s) := by
  refine .taken h fun _ => ?_
  split
  · exact .next { h with }
  next hmode =>
    split
    · exact .next { h with }
    · split
      · exact .next { h with }
      · split
        · exact .next { h with }
        next i e hfound =>
          have hunderway : s.Underway := { h with outside := hmode }
          exact .next (hunderway.discardEntry (findPending_some hfound).1).toSafe

theorem execGetEntry_safe (h : s.Safe) : EndsSafe (execGetEntry s) := by
  refine .taken h fun _ => ?_
  split
  · exact .next { h with }
  · split
    · exact .next { h with }
    · split <;> exact .next { h with }

/-- R12: what SET_LINE has established where it writes. -/
theorem setLineCheck_eq_none {src : Source} {line : Line} {c : LineConfig} (hcheck : s.setLineCheck src line c = none) :
    ¬ (src = localSource ∧ c.kind = .held) ∧ ¬ (c.kind = .held ∧ c.auto = true) ∧
      ¬ (c.kind ≠ (s.lineConfig src line).kind ∧ s.occupied src line = true) := by
  unfold State.setLineCheck at hcheck
  split at hcheck
  · cases hcheck
  next hlocal =>
    split at hcheck
    · cases hcheck
    next hauto =>
      split at hcheck
      · cases hcheck
      next huse => exact ⟨hlocal, hauto, huse⟩

/-- R12: a kind that changes is that of a line without live entries, and a HELD line is remote and not AUTO. -/
theorem State.Safe.setLine (h : s.Safe) {src : Source} {line : Line} {c : LineConfig}
    (hcheck : s.setLineCheck src line c = none) : (s.setLineConfig src line c).Safe := by
  have hconfig (src' : Source) (line' : Line) :
      (s.setLineConfig src line c).lineConfig src' line' = if src' = src ∧ line' = line then c else s.lineConfig src' line' :=
    setLineConfig_getElem ..
  obtain ⟨hlocal, hauto, huse⟩ := setLineCheck_eq_none hcheck
  obtain ⟨hpendingKinds, hstackKinds⟩ := h.kindsAgree
  have hkept {e : Entry} (hkind : e.kind = (s.lineConfig e.source e.line).kind)
      (hlive : e.source = src ∧ e.line = line → s.occupied src line = true) :
      e.kind = ((s.setLineConfig src line c).lineConfig e.source e.line).kind := by
    rw [hconfig]
    split
    next hon =>
      by_contra hchanged
      refine huse ⟨fun hsame => hchanged ?_, hlive hon⟩
      rw [hkind, hon.1, hon.2, hsame]
    next => exact hkind
  exact { h with
    lineMapLegal := fun src' line' hheld => by
      rw [hconfig] at hheld ⊢
      split at hheld
      next hon =>
        rw [if_pos hon, hon.1]
        exact ⟨Bool.eq_false_iff.mpr fun hon => hauto ⟨hheld, hon⟩, fun hsource => hlocal ⟨hsource, hheld⟩⟩
      next hoff =>
        rw [if_neg hoff]
        exact h.lineMapLegal src' line' hheld
    kindsAgree :=
      ⟨fun e he => hkept (hpendingKinds e he) fun hon => (occupied_iff s src line).mpr (.inl ⟨e, he, hon⟩),
      fun x hx => hkept (hstackKinds x hx) fun hon => (occupied_iff s src line).mpr (.inr ⟨x, hx, hon⟩)⟩ }

theorem execSetLine_safe (h : s.Safe) : EndsSafe (execSetLine s) := by
  refine .taken h fun _ => ?_
  split
  · exact .next { h with }
  · dsimp only
    split
    · exact .next { h with }
    next hcheck => exact .next { h.setLine hcheck with }

theorem execGetLine_safe (h : s.Safe) : EndsSafe (execGetLine s) := by
  refine .taken h fun _ => ?_
  split <;> exact .next { h with }

theorem execSetNode_safe (h : s.Safe) : EndsSafe (execSetNode s) := by
  refine .taken h fun _ => ?_
  split
  · exact .next { h with }
  next n _ =>
    split
    · exact .next { h with }
    next hlimit =>
      obtain ⟨hrecords, -⟩ := h.recordsLegal
      obtain ⟨hlegal, hfaults⟩ := hrecords n
      have hwritten := h.updateNode (n := n)
        (r := { s.nodes[n] with join := joinOfArg s.arg1, configLimit := limitOfArg s.arg1 }) rfl rfl
        (hlegal.configured (joinOfArg s.arg1) hlimit) hfaults
      exact .next { hwritten with }

theorem execGetNode_safe (h : s.Safe) : EndsSafe (execGetNode s) := by
  refine .taken h fun _ => ?_
  split <;> exact .next { h with }

theorem execSetLink_safe (h : s.Safe) : EndsSafe (execSetLink s) := by
  refine .taken h fun _ => ?_
  split
  · split
    next hvalid =>
      obtain ⟨hwaitLow, hwaitHigh, hlimitLow, hlimitHigh⟩ := linkArgsValid_iff.mp hvalid
      obtain ⟨hrecords, -, -, -, -, -, hcount⟩ := h.recordsLegal
      have hdiv : s.arg0.toNat ≤ 255 := Nat.le_of_lt_succ s.arg0.isLt
      exact .next { h with
        recordsLegal := ⟨hrecords, hdiv, hwaitLow, hwaitHigh, hlimitLow, hlimitHigh, hcount⟩ }
    · exact .next { h with }
  · exact .next { h with }

theorem execRetire_safe (h : s.Safe) : EndsSafe (execRetire s) := by
  refine .taken h fun hidle => ?_
  split
  · exact .next { h with }
  next hmode =>
    split
    · exact .next { h with }
    next n _ =>
      split
      · exact .next { h with }
      · split
        · exact .next { h with }
        next hroom =>
          have hunderway : s.Underway := { h with outside := hmode }
          exact .next (hunderway.beginRetire hidle (not_le.mp (mt queueFull_iff.mpr hroom)) n).toSafe

theorem run_safe (h : s.Safe) (c : CmdCode) : EndsSafe (c.run s) := by
  cases c with
  | start => exact execStart_safe h
  | stop => exact execStop_safe h
  | resume => exact execResume_safe h
  | restart => exact execRestart_safe h
  | complete => exact execComplete_safe h
  | completeTop => exact execCompleteTop_safe h
  | discard => exact execDiscard_safe h
  | getEntry => exact execGetEntry_safe h
  | setLine => exact execSetLine_safe h
  | getLine => exact execGetLine_safe h
  | setNode => exact execSetNode_safe h
  | getNode => exact execGetNode_safe h
  | retire => exact execRetire_safe h
  | setLink => exact execSetLink_safe h

theorem execBadCmd_safe (h : s.Safe) (code : Byte) : EndsSafe (execBadCmd code s) := by
  unfold execBadCmd
  split
  · exact .taken h fun _ => .next { h with }
  · exact run_safe h _

theorem execRegisterWrite_safe (h : s.Safe) (addr : BitVec 4) (value : Byte) : EndsSafe (execRegisterWrite addr value s) := by
  unfold execRegisterWrite
  cases Reg.ofAddr addr with
  | arg i =>
    refine .taken h fun _ => .next ?_
    unfold State.setArg
    split <;> exact { h with }
  | cmdRes => exact execBadCmd_safe h value
  | floor => exact .next { h with }
  | lven reg => cases reg <;> exact .next { h with }
  | stat | claim | cwSrc | cwLvl | cwFlg | cwPl0 | cwPl1 | top => exact .next h

theorem pinReset_safe (s : State) : s.pinReset.Safe := { safetyHoldsAtReset with }

theorem execPinReset_safe (h : s.Safe) (periods : Nat) : EndsSafe (execPinReset periods s) := by
  unfold execPinReset
  split
  · exact .next (pinReset_safe s)
  · dsimp only
    split
    · exact .next (pinReset_safe _)
    · exact .next { h with }

/-- Every command, well-formed or not, keeps the laws and meets no fault. -/
theorem exec_safe (h : s.Safe) (c : Instr) : EndsSafe (exec c s) := by
  cases c with
  | statRead | floorWrite value => exact .next { h with }
  | lvenWrite reg value => cases reg <;> exact .next { h with }
  | claim => exact execClaim_safe h
  | registerWrite addr value => exact execRegisterWrite_safe h addr value
  | badCmd code => exact execBadCmd_safe h code
  | start => exact execStart_safe h
  | stop => exact execStop_safe h
  | resume => exact execResume_safe h
  | restart => exact execRestart_safe h
  | complete => exact execComplete_safe h
  | completeTop => exact execCompleteTop_safe h
  | discard => exact execDiscard_safe h
  | getEntry => exact execGetEntry_safe h
  | setLine => exact execSetLine_safe h
  | getLine => exact execGetLine_safe h
  | setNode => exact execSetNode_safe h
  | getNode => exact execGetNode_safe h
  | setLink => exact execSetLink_safe h
  | retire => exact execRetire_safe h
  | restartClearStep => exact execRestartClearStep_safe h
  | retireWalkStep => exact execRetireWalkStep_safe h
  | pinReset periods => exact execPinReset_safe h periods
  | schedulerChoice => exact execSchedulerChoice_safe h
  | frameTransmitted => exact execFrameTransmitted_safe h
  | replyWaitExpiry => exact execReplyWaitExpiry_safe h
  | replyReceived ldi => exact execReplyReceived_safe h ldi
  | drainEnd => exact execDrainEnd_safe h
  | guardEnd => exact execGuardEnd_safe h
  | admissionTake => exact execAdmissionTake_safe h
  | localPosting c => exact execLocalPosting_safe h c
  | startBit k => exact execStartBit_safe h k
  | framingError ldi => exact execFramingError_safe h ldi

end

/-- Settles O5: an idle step keeps the state, and a command taken from the queue ends in a next state that keeps the laws. -/
theorem everyStepRunsAndKeepsSafety : Obligations.EveryStepRunsAndKeepsSafety := by
  intro s h
  unfold step
  split
  · exact ⟨s, rfl, h⟩
  next c rest _ => exact exec_safe (s := { s with pending := rest }) { h with } c

end Sys2Proof.Machine
end
